-- ==== Sys2Proof/Word.lean ====
section
/-! DEFINITION. The one word width of S16M: every register, every command word and every port transfer is
16 bits (00_scope.md R14, 10_state.md R31, 20_memory.md R66). -/

namespace Sys2Proof

/-- A 16-bit pattern. Bit 0 is the least significant bit (R14). How a command reads the pattern is the
command's own matter (R15, R31). -/
abbrev Word := BitVec 16

end Sys2Proof
end

