-- ==== Sys2Proof/Machine/Numeric.lean ====
section
/-! DEFINITION. The number notation of the rules (00_scope.md R14 to R17): readings of a pattern, narrowing,
rounded division, shifts, and the bounded searches for roots. -/

namespace Sys2Proof.Machine

/-- `s16(w)`: the pattern read as two's complement (R15). -/
def s16 (w : Word) : Int := w.toInt

/-- `u16(w)`: the pattern read as unsigned (R15). -/
def u16 (w : Word) : Nat := w.toNat

/-- `s32({h, l})`: the pair read as 32-bit two's complement (R15). -/
def s32 (h l : Word) : Int := (h ++ l).toInt

/-- `wrap16(v)`: the 16-bit pattern of `v` modulo 65536 (R15). -/
def wrap16 (v : Int) : Word := BitVec.ofInt 16 v

/-- `fits16(v)`: `-32768 <= v <= 32767` (R15). -/
def fits16 (v : Int) : Bool := decide (-32768 ≤ v ∧ v ≤ 32767)

/-- `v >> i` on a signed value: arithmetic, equal to `v div 2^i` (R16). -/
def asr (v : Int) (i : Nat) : Int := v / 2 ^ i

/-- `v << i` is `v * 2^i` (R16). -/
def shl (v : Int) (i : Nat) : Int := v * 2 ^ i

/-- `rdiv(p, d)` for `d > 0`: nearest integer to `p / d`, ties away from zero (R17). -/
def rdiv (p d : Int) : Int :=
  if 0 ≤ p then (p + d / 2) / d else -((-p + d / 2) / d)

/-- `rdivs(n, d)` for `d ≠ 0` of either sign: the same rounding of `n / d` (R17). -/
def rdivs (n d : Int) : Int :=
  let m := ((n.natAbs + d.natAbs / 2) / d.natAbs : Nat)
  if decide (n < 0) = decide (d < 0) then (m : Int) else -(m : Int)

/-- The largest `r` above `lo` that a bitwise search of `bits` steps reaches: from the top bit down, keep a
bit when the test still holds with it (45_transcendental.md R212). -/
def bisect (test : Nat → Bool) : Nat → Nat → Nat
  | 0, lo => lo
  | i + 1, lo => if test (lo + 2 ^ i) then bisect test i (lo + 2 ^ i) else bisect test i lo

/-- `isqrt(v)` for `v < 2^32`: the largest integer whose square is at most `v` (44_inverse_trig.md R182). -/
def isqrt (v : Nat) : Nat := bisect (fun r => decide (r * r ≤ v)) 16 0

end Sys2Proof.Machine
end

