-- ==== Sys2Proof/Config.lean ====
section
/-! DEFINITION. The build parameters of S16M (00_scope.md R8, R9, R13; 10_state.md R52). The numbers each
build fixes (scales, tables, constants) stand in Machine/Constants.lean. -/

namespace Sys2Proof

/-- The three configurations: `MODE = DEC`, `MODE = BIN` with `RADQ = 0` (radians Q5.10) and `MODE = BIN`
with `RADQ = 1` (radians Q6.9). `RADQ` exists only when `MODE = BIN` (R8, R9). -/
inductive Build where
  | dec
  | binQ510
  | binQ69
  deriving DecidableEq, Repr

/-- `MODE` as the bit `CONFIG.MODE` shows it: true for `BIN` (R8, R45). -/
def Build.isBin : Build → Bool
  | .dec => false
  | .binQ510 => true
  | .binQ69 => true

/-- `RADQ` as the bit `CONFIG.RADQ` shows it: true for Q6.9 (R9, R45). -/
def Build.isQ69 : Build → Bool
  | .dec => false
  | .binQ510 => false
  | .binQ69 => true

end Sys2Proof
end

