-- ==== Sys2Proof/Machine/State.lean ====
section
/-! DEFINITION. The state of S16M (10_state.md R30): four data registers and the four fields of `STATUS`. The
last three fields are the model's own: the build the machine is, what the host has asked for and what the host
has been told. -/

namespace Sys2Proof.Machine

/-- One access of the host at the port (20_memory.md R61, R62, R73), or one assertion of `rst`
(70_reset_and_hazards.md R270). An address is 3 bits wide, so it always names one of the eight words. -/
inductive Access where
  | read (addr : BitVec 3)
  | write (addr : BitVec 3) (data : Word)
  | reset
  deriving DecidableEq, Repr

/-- The machine's state. -/
structure State where
  /-- `A` = `x[0]`: first operand (R32). -/
  a : Word
  /-- `B` = `x[1]`: second operand (R32). -/
  b : Word
  /-- `R` = `x[2]`: primary result, and the operand a predicate judges (R32). -/
  r : Word
  /-- `RH` = `x[3]`: secondary result (R32). -/
  rh : Word
  /-- `STATUS.OVF` (R38). -/
  ovf : Bool
  /-- `STATUS.NEG` (R39). -/
  neg : Bool
  /-- `STATUS.PV`, sticky (R40). -/
  pv : Bool
  /-- `STATUS.CAUSE` (R41). -/
  cause : BitVec 3
  /-- MODEL'S OWN (log 1): the build parameters `MODE` and `RADQ` (R8, R9, R52). No step changes it. -/
  build : Build
  /-- MODEL'S OWN (log 2): the host's accesses not yet performed, oldest first (R68). -/
  requests : List Access
  /-- MODEL'S OWN (log 3): the words completed reads returned to the host, oldest first (R61). -/
  replies : List Word
  deriving DecidableEq, Repr

/-- Reasons for the machine to stop. None exists: "No exceptions or abort paths exist anywhere in the core"
(60_exceptions.md), a fault of the unit is recorded in `STATUS` and the machine goes on (R252), and no access is
ever refused (R74). The type is closed and has no constructor, so nobody raises one (log 8). -/
inductive Fault where
  deriving DecidableEq, Repr

/-- Reasons for the model to give no meaning. -/
inductive Refusal where
  /-- An instruction that has no meaning yet. Raised by an arm of `exec` only, and in this model by none.
  Safe: nothing can be proved of a refused instruction's effect. -/
  | notModelled (mnemonic : String)
  deriving DecidableEq, Repr

/-- What a step or a command answers. -/
abbrev Result := Host.Outcome State Fault Refusal

/-- The unit of build `bd` after reset, the host having asked for nothing: every register and flag is 0
(10_state.md R51, 70_reset_and_hazards.md R271). -/
def State.resetOf (bd : Build) : State :=
  { a := 0, b := 0, r := 0, rh := 0, ovf := false, neg := false, pv := false, cause := 0,
    build := bd, requests := [], replies := [] }

/-- The machine right after reset. DESIGN CHOICE (log 1), unsafe: of the three builds it is the decimal one; every
claim about a state holds for the other two as well. -/
def State.reset : State := State.resetOf .dec

end Sys2Proof.Machine
end

