-- ==== Sys2Proof/Machine/Operands.lean ====
section
/-! DEFINITION. The readings of the operand registers (00_scope.md R19, 30_encoding.md R82). There is no other
operand form: no immediate, no register number, no address (R81, R75). -/

namespace Sys2Proof.Machine

/-- `a = s16(A)` (R19). -/
def State.opA (s : State) : Int := s16 s.a

/-- `b = s16(B)` (R19). -/
def State.opB (s : State) : Int := s16 s.b

/-- `r = s16(R)`, the `result` operand of a predicate (R19, R130). -/
def State.opR (s : State) : Int := s16 s.r

/-- `u16(A)`, read by GCD only (R233). -/
def State.opUA (s : State) : Nat := u16 s.a

/-- `u16(B)`, read by GCD only (R233). -/
def State.opUB (s : State) : Nat := u16 s.b

/-- `s32({B, A})`, FIXSC's 32-bit operand (R34, R115). -/
def State.opBA (s : State) : Int := s32 s.b s.a

end Sys2Proof.Machine
end

