-- ==== Sys2Proof/Syntax.lean ====
section
/-! DEFINITION. The commands of S16M: one constructor per row of the opcode map (30_encoding.md R84). -/

namespace Sys2Proof

/-- A value kind, selected by the field `K` (00_scope.md R10, 30_encoding.md R80, R82). `K = 3` names no
kind, so it is no constructor. -/
inductive Kind where
  | num
  | deg
  | rad
  deriving DecidableEq, Repr

/-- A legal command. The word carries no operand and no register number (R81): the only fields that vary
are the kind of the nine kind-taking commands and CONST's 4-bit index, all of whose values are legal (R82). -/
inductive Instr where
  /-- NOP: do nothing (R100). -/
  | nop
  /-- CLRF: clear the four flags (R101). -/
  | clrf
  /-- CONST: read library constant `m` (R102). -/
  | const (m : BitVec 4)
  /-- CTAB: read a CORDIC table entry (R103). -/
  | ctab
  /-- SPLIT: whole part, fraction and sign (R110). -/
  | split (k : Kind)
  /-- JOIN: build a value from whole part and fraction (R111). -/
  | join (k : Kind)
  /-- JOINN: the same, forced negative (R111). -/
  | joinn (k : Kind)
  /-- TOBIN: plain number, scale 100 to 128 (R112). -/
  | tobin
  /-- TODEC: plain number, scale 128 to 100 (R113). -/
  | todec
  /-- PRESC: widen and multiply by the scale (R114). -/
  | presc (k : Kind)
  /-- FIXSC: divide a 32-bit value by the scale and narrow (R115). -/
  | fixsc (k : Kind)
  /-- MUL: multiply (R131). -/
  | mul (k : Kind)
  /-- MULOV: multiply's overflow predicate (R132). -/
  | mulov (k : Kind)
  /-- DIV: divide (R133). -/
  | div (k : Kind)
  /-- DIVOV: divide's overflow predicate (R134). -/
  | divov (k : Kind)
  /-- ADD: wrapping add (R135). -/
  | add
  /-- ADDOV: add's overflow predicate (R136). -/
  | addov
  /-- SUB: wrapping subtract (R137). -/
  | sub
  /-- SUBOV: subtract's overflow predicate (R138). -/
  | subov
  /-- ADDS: saturating add (R139). -/
  | adds
  /-- SUBS: saturating subtract (R140). -/
  | subs
  /-- POW: integer power (R141). -/
  | pow
  /-- POWOV: power's overflow predicate (R142). -/
  | powov
  /-- SIN: sine (R169). -/
  | sin
  /-- COS: cosine (R170). -/
  | cos
  /-- SINCOS: sine and cosine (R171). -/
  | sincos
  /-- TAN: tangent (R172). -/
  | tan
  /-- ASIN: arcsine (R183). -/
  | asin
  /-- ACOS: arccosine (R184). -/
  | acos
  /-- ATAN: arctangent (R185). -/
  | atan
  /-- ATAN2: four-quadrant arctangent (R186). -/
  | atan2
  /-- LN: natural logarithm (R202). -/
  | ln
  /-- LOGB: logarithm to a base (R203). -/
  | logb
  /-- LOG10: decimal logarithm (R204). -/
  | log10
  /-- EXP: exponential (R209). -/
  | exp
  /-- ROOT: n-th root (R213). -/
  | root
  /-- SQRT: square root (R214). -/
  | sqrt
  /-- ROOTOV: root's validity predicate (R215). -/
  | rootov
  /-- FACT: factorial (R216). -/
  | fact
  /-- D2R: degrees to radians (R230). -/
  | d2r
  /-- R2D: radians to degrees (R231). -/
  | r2d
  /-- GCD: greatest common divisor (R233). -/
  | gcd
  /-- RATIO: nearest small fraction (R237). -/
  | ratio
  /-- SCALEU: multiply by a plain integer (R238). -/
  | scaleu
  /-- SCALED: divide by a plain integer (R239). -/
  | scaled
  deriving DecidableEq, Repr

end Sys2Proof
end

