-- ==== Sys2Proof/Machine/Constants.lean ====
section
/-! DEFINITION. The constant data of each build (10_state.md R45, R47 to R49; 40_system.md R102; 43_cordic.md
R160 to R163; 45_transcendental.md R201; 46_angle_rational.md R237). -/

namespace Sys2Proof.Machine

/-- `S_NUM` (R10). -/
def sNum (bd : Build) : Int :=
  match bd with
  | .dec => 100
  | .binQ510 => 128
  | .binQ69 => 128

/-- `S_DEG` (R10). -/
def sDeg (bd : Build) : Int :=
  match bd with
  | .dec => 10
  | .binQ510 => 16
  | .binQ69 => 16

/-- `S_RAD` (R10). -/
def sRad (bd : Build) : Int :=
  match bd with
  | .dec => 1000
  | .binQ510 => 1024
  | .binQ69 => 512

/-- `S[K]`: the scale of a kind (R10). -/
def scale (bd : Build) (k : Kind) : Int :=
  match k with
  | .num => sNum bd
  | .deg => sDeg bd
  | .rad => sRad bd

/-- `PI` at `S_RAD` (R102). -/
def cPi (bd : Build) : Int :=
  match bd with
  | .dec => 3142
  | .binQ510 => 3217
  | .binQ69 => 1608

/-- `TWO_PI`, the full-circle constant (R102). -/
def cTwoPi (bd : Build) : Int :=
  match bd with
  | .dec => 6283
  | .binQ510 => 6434
  | .binQ69 => 3217

/-- `HALF_PI` (R102). -/
def cHalfPi (bd : Build) : Int :=
  match bd with
  | .dec => 1571
  | .binQ510 => 1608
  | .binQ69 => 804

/-- `THREE_HALF_PI` (R102). -/
def cThreeHalfPi (bd : Build) : Int :=
  match bd with
  | .dec => 4712
  | .binQ510 => 4825
  | .binQ69 => 2413

/-- `E` at `S_NUM` (R102). -/
def cE (bd : Build) : Int :=
  match bd with
  | .dec => 272
  | .binQ510 => 348
  | .binQ69 => 348

/-- `LN10` at `S_NUM` (R102). -/
def cLn10 (bd : Build) : Int :=
  match bd with
  | .dec => 230
  | .binQ510 => 295
  | .binQ69 => 295

/-- `DEG_PER_RAD` at `S_DEG` (R102). -/
def cDegPerRad (bd : Build) : Int :=
  match bd with
  | .dec => 573
  | .binQ510 => 917
  | .binQ69 => 917

/-- `RAD_PER_DEG` at `S_RAD` (R102). -/
def cRadPerDeg (bd : Build) : Int :=
  match bd with
  | .dec => 17
  | .binQ510 => 18
  | .binQ69 => 9

/-- The sentinel `SENT = -99 * S_NUM` (R49). -/
def sent (bd : Build) : Int := -99 * sNum bd

/-- `CORDIC_N`: table length and iteration count (R12). -/
def cordicN (bd : Build) : Nat :=
  match bd with
  | .dec => 15
  | .binQ510 => 14
  | .binQ69 => 14

/-- `CORDIC_UNIT`: the unit magnitude the vector starts from (R162). -/
def cordicUnit (bd : Build) : Int :=
  match bd with
  | .dec => 100000
  | .binQ510 => 16384
  | .binQ69 => 16384

/-- `CORDIC_K`: the magnitude correction (R162). -/
def cordicK (bd : Build) : Int :=
  match bd with
  | .dec => 6073
  | .binQ510 => 19898
  | .binQ69 => 19898

/-- `CORDIC_LC`: the length correction (R162). -/
def cordicLC (bd : Build) : Int :=
  match bd with
  | .dec => 10000000
  | .binQ510 => 4194304
  | .binQ69 => 4194304

/-- `ASH`: extra fractional bits of an internal angle (R160). -/
def ash (bd : Build) : Nat :=
  match bd with
  | .dec => 6
  | .binQ510 => 6
  | .binQ69 => 7

/-- The CORDIC angle table of the decimal build (R161). -/
def cordicTableDec : List Int :=
  [50265, 29673, 15679, 7959, 3995, 1999, 1000, 500, 250, 125, 62, 31, 16, 8, 4]

/-- The CORDIC angle table both binary builds share (R161). -/
def cordicTableBin : List Int :=
  [51472, 30386, 16055, 8150, 4091, 2047, 1024, 512, 256, 128, 64, 32, 16, 8]

/-- `T[0 .. CORDIC_N - 1]` (R47, R161). -/
def cordicTable (bd : Build) : List Int :=
  match bd with
  | .dec => cordicTableDec
  | .binQ510 => cordicTableBin
  | .binQ69 => cordicTableBin

/-- `CONSTVAL[0 .. 15]` in the order of R102's table. -/
def constTable (bd : Build) : List Int :=
  [sNum bd, sDeg bd, sRad bd, cPi bd, cTwoPi bd, cHalfPi bd, cThreeHalfPi bd, cE bd, cLn10 bd,
   cDegPerRad bd, cRadPerDeg bd, sent bd, (cordicN bd : Int), cordicK bd, cordicLC bd, cordicUnit bd]

/-- `CONSTVAL[M]` (R102). All 16 indices are assigned, so the default is never reached. -/
def constVal (bd : Build) (m : BitVec 4) : Int := (constTable bd).getD m.toNat 0

/-- `LN2_16` (R201). -/
def ln2At16 : Int := 45426

/-- `LNS_16` (R201). -/
def lnScaleAt16 (bd : Build) : Int :=
  match bd with
  | .dec => 301804
  | .binQ510 => 317982
  | .binQ69 => 317982

/-- `RATIO_DMAX`: the largest denominator RATIO searches; the spec's parameter at its default (R13, R237; log 5). -/
def ratioDMax : Nat := 16

/-- `IFREV`: the interface revision in `CONFIG`; the spec's parameter at its default (R13, R45; log 5). -/
def ifRev : Nat := 1

/-- The `CONFIG` word: `MODE` bit 0, `RADQ` bit 1, `N` bits 7:4, `IFREV` bits 15:8 (R45). -/
def configWord (bd : Build) : Word :=
  BitVec.ofNat 16 (bd.isBin.toNat + 2 * bd.isQ69.toNat + 16 * cordicN bd + 256 * ifRev)

end Sys2Proof.Machine
end

