-- ==== Sys2Proof/Machine/Ops.lean ====
section
/-! DEFINITION. The named operations over the registers and the flags: writing results, the `STATUS` word,
recording a fault (60_exceptions.md R252) and the nearest thing to a return from one (R255), and the register
space the host reads and stores to (20_memory.md R61, R62). -/

namespace Sys2Proof.Machine

/-- `A <- w`. Only the host writes `A` (R33). -/
def State.setA (s : State) (w : Word) : State := { s with a := w }

/-- `B <- w`. Only the host writes `B` (R33). -/
def State.setB (s : State) (w : Word) : State := { s with b := w }

/-- `R <- w`. -/
def State.setR (s : State) (w : Word) : State := { s with r := w }

/-- `RH <- w`. -/
def State.setRH (s : State) (w : Word) : State := { s with rh := w }

/-- `STATUS.OVF <- f`. -/
def State.setOvf (s : State) (f : Bool) : State := { s with ovf := f }

/-- `STATUS.NEG <- f`. -/
def State.setNeg (s : State) (f : Bool) : State := { s with neg := f }

/-- `{RH, R} <- v`, the 32-bit pattern of `v` with the high half in `RH` (R34, R102, R114). -/
def State.setPair (s : State) (v : Int) : State := (s.setR (wrap16 v)).setRH (wrap16 (asr v 16))

/-- The causes a fault can record (R251). -/
inductive FaultCause where
  | divzero
  | domain
  | illcmd
  deriving DecidableEq, Repr

/-- The code of a cause (R41, R251). -/
def FaultCause.code (c : FaultCause) : BitVec 3 :=
  match c with
  | .divzero => 1
  | .domain => 2
  | .illcmd => 3

/-- `raise Fault(c)` (R252): the first fault since `PV` was last 0 keeps its cause; nothing else changes. -/
def State.raise (s : State) (c : FaultCause) : State :=
  { s with cause := if s.pv then s.cause else c.code, pv := true }

/-- A command that faults ends so: the fault is recorded, nothing else is written, the machine goes on (R90,
R252, R254). -/
def faultNext (c : FaultCause) (s : State) : Result := .next (s.raise c)

/-- The whole "return" from a fault: all four flags cleared, nothing restored (R101, R255). -/
def State.clearFlags (s : State) : State := { s with ovf := false, neg := false, pv := false, cause := 0 }

/-- The `STATUS` word `{0[8:0], CAUSE[2:0], 0, PV, NEG, OVF}` (R42). -/
def State.statusWord (s : State) : Word :=
  (0 : BitVec 9) ++ s.cause ++ (0 : BitVec 1) ++ BitVec.ofBool s.pv ++ BitVec.ofBool s.neg ++ BitVec.ofBool s.ovf

/-- A host write of `d` to `STATUS`: `OVF <- d[0]; NEG <- d[1]` and nothing else (R43). -/
def State.writeStatus (s : State) (d : Word) : State := { s with ovf := d.getLsbD 0, neg := d.getLsbD 1 }

/-- The word a host read of `addr` returns (R61). -/
def State.hostRead (s : State) (addr : BitVec 3) : Word :=
  match addr.toNat with
  | 0 => s.a
  | 1 => s.b
  | 2 => s.r
  | 3 => s.rh
  | 5 => s.statusWord
  | 6 => configWord s.build
  | _ => 0

/-- A host write to an address other than `CMD`: store, write the two flags, or nothing (R62). -/
def State.hostStore (s : State) (addr : BitVec 3) (d : Word) : State :=
  match addr.toNat with
  | 0 => s.setA d
  | 1 => s.setB d
  | 2 => s.setR d
  | 3 => s.setRH d
  | 5 => s.writeStatus d
  | _ => s

/-- Reset: every register and flag to 0; the build stays what it is, and so does what the host has asked for
and been told (R270, R271). -/
def State.resetUnit (s : State) : State :=
  { State.resetOf s.build with requests := s.requests, replies := s.replies }

end Sys2Proof.Machine
end

