-- ==== Sys2Proof/Machine/Flags.lean ====
section
/-! DEFINITION. The flag computations (10_state.md R38, R39; 42_arith.md R130). -/

namespace Sys2Proof.Machine

/-- `OVF` of a combined command: the exact value does not fit 16 bits (R38). -/
def overflowed (v : Int) : Bool := !fits16 v

/-- `OVF` of a predicate: the register `R` does not hold the exact value `q` (R130). -/
def mismatched (q r : Int) : Bool := decide (q ≠ r)

/-- `NEG`: the operand is negative (R39). -/
def isNegative (v : Int) : Bool := decide (v < 0)

/-- `R <- wrap16(q); STATUS.OVF <- not fits16(q)`: the end of a combined command (R38). -/
def State.setResultOvf (s : State) (q : Int) : State := (s.setR (wrap16 q)).setOvf (overflowed q)

/-- `STATUS.OVF <- (q == r ? 0 : 1)`: the end of a predicate (R130). -/
def State.judge (s : State) (q : Int) : State := s.setOvf (mismatched q s.opR)

/-- Clamp to -32768 .. 32767 (R139). -/
def clamp16 (v : Int) : Int := if 32767 < v then 32767 else if v < -32768 then -32768 else v

end Sys2Proof.Machine
end

