-- ==== Sys2Proof/Machine/AngleRational.lean ====
section
/-! DEFINITION. Angle conversion and rational utilities (46_angle_rational.md R230 to R239). -/

namespace Sys2Proof.Machine

/-- D2R (R230): the exact ratio with the stored full circles, one rounding. -/
def execD2r (s : State) : Result :=
  .next (s.setResultOvf (rdiv (s.opA * cTwoPi s.build) (360 * sDeg s.build)))

/-- R2D (R231). -/
def execR2d (s : State) : Result :=
  .next (s.setResultOvf (rdiv (s.opA * 360 * sDeg s.build) (cTwoPi s.build)))

/-- The Euclidean loop of GCD (R233). `fuel` bounds the iterations; each one makes `v` smaller, so `fuel > v`
never runs out. -/
def gcdLoop : Nat → Nat → Nat → Nat
  | 0, u, _ => u
  | fuel + 1, u, v => if v = 0 then u else gcdLoop fuel v (u % v)

/-- GCD (R233): the operands are read unsigned. -/
def execGcd (s : State) : Result :=
  .next (s.setR (BitVec.ofNat 16 (gcdLoop 65536 s.opUA s.opUB)))

/-- The best fraction RATIO has found so far, with its error `e = abs(num * S_NUM - a * den)` (R237). -/
structure Ratio where
  e : Int
  num : Int
  den : Int
  deriving DecidableEq, Repr

/-- RATIO's candidate of denominator `den`: the nearest numerator (R237). -/
def ratioAt (bd : Build) (a den : Int) : Ratio :=
  let num := rdiv (a * den) (sNum bd)
  { e := (num * sNum bd - a * den).natAbs, num := num, den := den }

/-- Keep the candidate when its error is strictly smaller (R237). -/
def Ratio.better (best cand : Ratio) : Ratio :=
  if cand.e * best.den < best.e * cand.den then cand else best

/-- The search over `n` further denominators from `den` up (R237). -/
def ratioLoop (bd : Build) (a : Int) : Nat → Int → Ratio → Ratio
  | 0, _, best => best
  | n + 1, den, best => ratioLoop bd a n (den + 1) (best.better (ratioAt bd a den))

/-- The fraction RATIO packs: denominator 1 first, then 2 .. `RATIO_DMAX` (R237). -/
def bestRatio (bd : Build) (a : Int) : Ratio := ratioLoop bd a (ratioDMax - 1) 2 (ratioAt bd a 1)

/-- RATIO (R237): numerator in bits 15:8, denominator in bits 7:0; `DOMAIN` outside 0 .. 1.0. -/
def execRatio (s : State) : Result :=
  if s.opA < 0 ∨ sNum s.build < s.opA then faultNext .domain s
  else
    let q := bestRatio s.build s.opA
    .next (s.setR (wrap16 (q.num * 256 + q.den)))

/-- SCALEU (R238). -/
def execScaleu (s : State) : Result := .next (s.setResultOvf (s.opA * s.opB))

/-- SCALED (R239): `DIVZERO` when `b = 0`. -/
def execScaled (s : State) : Result :=
  if s.opB = 0 then faultNext .divzero s
  else .next (s.setResultOvf (rdivs s.opA s.opB))

end Sys2Proof.Machine
end

