-- ==== Sys2Proof/Machine/Arith.lean ====
section
/-! DEFINITION. Overflow-checked arithmetic (42_arith.md R130 to R142). -/

namespace Sys2Proof.Machine

/-- MUL.k (R131): the exact product, rounded to the scale and wrapped; no flag. -/
def execMul (k : Kind) (s : State) : Result :=
  .next (s.setR (wrap16 (rdiv (s.opA * s.opB) (scale s.build k))))

/-- MULOV.k (R132). -/
def execMulov (k : Kind) (s : State) : Result := .next (s.judge (rdiv (s.opA * s.opB) (scale s.build k)))

/-- DIV.k (R133): `DIVZERO` when `b = 0`. -/
def execDiv (k : Kind) (s : State) : Result :=
  if s.opB = 0 then faultNext .divzero s
  else .next (s.setR (wrap16 (rdivs (s.opA * scale s.build k) s.opB)))

/-- DIVOV.k (R134): 1 when `b = 0`; never a fault. -/
def execDivov (k : Kind) (s : State) : Result :=
  if s.opB = 0 then .next (s.setOvf true)
  else .next (s.judge (rdivs (s.opA * scale s.build k) s.opB))

/-- ADD (R135). -/
def execAdd (s : State) : Result := .next (s.setR (wrap16 (s.opA + s.opB)))

/-- ADDOV (R136). -/
def execAddov (s : State) : Result := .next (s.judge (s.opA + s.opB))

/-- SUB (R137). -/
def execSub (s : State) : Result := .next (s.setR (wrap16 (s.opA - s.opB)))

/-- SUBOV (R138). -/
def execSubov (s : State) : Result := .next (s.judge (s.opA - s.opB))

/-- ADDS (R139): clamps and reports the clamp in `OVF`. -/
def execAdds (s : State) : Result :=
  .next ((s.setR (wrap16 (clamp16 (s.opA + s.opB)))).setOvf (overflowed (s.opA + s.opB)))

/-- SUBS (R140). -/
def execSubs (s : State) : Result :=
  .next ((s.setR (wrap16 (clamp16 (s.opA - s.opB)))).setOvf (overflowed (s.opA - s.opB)))

/-- The running product of POW and FACT with its flag: each step narrows, and the flag remembers any step
that did not fit (R141, R216). -/
structure Running where
  acc : Int
  ov : Bool
  deriving DecidableEq, Repr

/-- Narrow the exact value `q` of one step into the running product (R141). -/
def Running.narrow (p : Running) (q : Int) : Running :=
  { acc := s16 (wrap16 q), ov := p.ov || overflowed q }

/-- `n` steps in a row, step `i` first, then `i + 1`, …: the loops of R141 and R216 as they are written. -/
def runPlain (f : Nat → Running → Running) : Nat → Nat → Running → Running
  | _, 0, p => p
  | i, n + 1, p => runPlain f (i + 1) n (f i p)

/-- Hands a natural number on once it is known to be zero or a successor; equal to `k n`. -/
def forceNat {α : Type} (n : Nat) (k : Nat → α) : α :=
  match n with
  | 0 => k 0
  | m + 1 => k (m + 1)

/-- Hands a running product on with its value worked out; equal to `k p`. It only sets the order of
evaluation, so that a loop of 32767 steps can be evaluated by Lean's kernel. -/
def Running.force {α : Type} (p : Running) (k : Running → α) : α :=
  match p.acc, p.ov with
  | .ofNat n, true => forceNat n fun m => k { acc := .ofNat m, ov := true }
  | .ofNat n, false => forceNat n fun m => k { acc := .ofNat m, ov := false }
  | .negSucc n, true => forceNat n fun m => k { acc := .negSucc m, ov := true }
  | .negSucc n, false => forceNat n fun m => k { acc := .negSucc m, ov := false }

/-- `runPlain` by halves: the same steps in the same order, each one evaluated before the next. `fuel` bounds
the halvings: it serves for `n <= 2^(fuel - 1)` (Laws/Arith.lean proves it equal to `runPlain` there). -/
def runHalves (f : Nat → Running → Running) : Nat → Nat → Nat → Running → Running
  | 0, _, _, p => p
  | fuel + 1, i, n, p =>
    if n = 0 then p
    else if n = 1 then (f i p).force id
    else (runHalves f fuel i (n / 2) p).force (runHalves f fuel (i + n / 2) (n - n / 2))

/-- One step of POW: multiply by `a` at scale `S_NUM`, round, narrow (R141). -/
def powStep (bd : Build) (a : Int) (p : Running) : Running := p.narrow (rdiv (p.acc * a) (sNum bd))

/-- The product and flag of R141 for base `a` and exponent `n <= 32767`. -/
def power (bd : Build) (a : Int) (n : Nat) : Running :=
  runHalves (fun _ p => powStep bd a p) 16 0 n { acc := sNum bd, ov := false }

/-- POW (R141): `DOMAIN` when `n < 0`. -/
def execPow (s : State) : Result :=
  if s.opB < 0 then faultNext .domain s
  else
    let p := power s.build s.opA s.opB.toNat
    .next ((s.setR (wrap16 p.acc)).setOvf p.ov)

/-- POWOV (R142): 1 when `n < 0`; never a fault. -/
def execPowov (s : State) : Result :=
  if s.opB < 0 then .next (s.setOvf true)
  else
    let p := power s.build s.opA s.opB.toNat
    .next (s.setOvf (p.ov || mismatched p.acc s.opR))

end Sys2Proof.Machine
end

