-- ==== Sys2Proof/Machine/Cordic.lean ====
section
/-! DEFINITION. The CORDIC rotation engine (43_cordic.md R160 to R172). -/

namespace Sys2Proof.Machine

/-- The working registers of one CORDIC run: vector and angle (R167, R180). They exist inside one command
only (R50). -/
structure Cordic where
  x : Int
  y : Int
  z : Int
  deriving DecidableEq, Repr

/-- A reduced angle with the signs of its quadrant (R164). -/
structure Unwound where
  theta : Int
  ssin : Int
  scos : Int
  deriving DecidableEq, Repr

/-- Unwinding and quadrant of a stored angle (R164). A boundary angle belongs to the lower quadrant, as the
rule's comparisons say (log 9). -/
def unwind (bd : Build) (phi : Int) : Unwound :=
  let r := phi % cTwoPi bd
  if r ≤ cHalfPi bd then { theta := r, ssin := 1, scos := 1 }
  else if r ≤ cPi bd then { theta := cPi bd - r, ssin := 1, scos := -1 }
  else if r ≤ cThreeHalfPi bd then { theta := r - cPi bd, ssin := -1, scos := -1 }
  else { theta := cTwoPi bd - r, ssin := -1, scos := 1 }

/-- One iteration of the rotation kernel with table entry `t`; both updates use the old vector, and a zero
residual counts as non-negative (R167). -/
def rotStep (i : Nat) (t : Int) (v : Cordic) : Cordic :=
  if 0 ≤ v.z then { x := v.x - asr v.y i, y := v.y + asr v.x i, z := v.z - t }
  else { x := v.x + asr v.y i, y := v.y - asr v.x i, z := v.z + t }

/-- The iterations from index `i` on, one for each table entry: no early exit (R167, R173). -/
def rotLoop : List Int → Nat → Cordic → Cordic
  | [], _, v => v
  | t :: ts, i, v => rotLoop ts (i + 1) (rotStep i t v)

/-- The vector after all iterations for the reduced angle `theta` (R167). -/
def rotate (bd : Build) (theta : Int) : Cordic :=
  rotLoop (cordicTable bd) 0 { x := cordicUnit bd, y := 0, z := shl theta (ash bd) }

/-- Magnitude and length correction in one rounded step (R162, R167). -/
def lengthCorrect (bd : Build) (v : Int) : Int := rdiv (v * cordicK bd) (cordicLC bd)

/-- The sine of `sincos(phi)` (R168). -/
def sine (bd : Build) (phi : Int) : Int :=
  (unwind bd phi).ssin * lengthCorrect bd (rotate bd (unwind bd phi).theta).y

/-- The cosine of `sincos(phi)` (R168). -/
def cosine (bd : Build) (phi : Int) : Int :=
  (unwind bd phi).scos * lengthCorrect bd (rotate bd (unwind bd phi).theta).x

/-- SIN (R169). -/
def execSin (s : State) : Result := .next (s.setR (wrap16 (sine s.build s.opA)))

/-- COS (R170). -/
def execCos (s : State) : Result := .next (s.setR (wrap16 (cosine s.build s.opA)))

/-- SINCOS (R171): sine in `R`, cosine in `RH`. -/
def execSincos (s : State) : Result :=
  .next ((s.setR (wrap16 (sine s.build s.opA))).setRH (wrap16 (cosine s.build s.opA)))

/-- TAN (R172): `DIVZERO` when the rounded cosine is 0. -/
def execTan (s : State) : Result :=
  if cosine s.build s.opA = 0 then faultNext .divzero s
  else .next (s.setR (wrap16 (rdivs (sine s.build s.opA * sNum s.build) (cosine s.build s.opA))))

end Sys2Proof.Machine
end

