-- ==== Sys2Proof/Machine/InverseTrig.lean ====
section
/-! DEFINITION. Inverse CORDIC (44_inverse_trig.md R180 to R186). -/

namespace Sys2Proof.Machine

/-- One iteration of the vectoring kernel; `y = 0` counts as non-negative (R180). -/
def vecStep (i : Nat) (t : Int) (v : Cordic) : Cordic :=
  if 0 ≤ v.y then { x := v.x + asr v.y i, y := v.y - asr v.x i, z := v.z + t }
  else { x := v.x - asr v.y i, y := v.y + asr v.x i, z := v.z - t }

/-- The iterations from index `i` on, one for each table entry (R180). -/
def vecLoop : List Int → Nat → Cordic → Cordic
  | [], _, v => v
  | t :: ts, i, v => vecLoop ts (i + 1) (vecStep i t v)

/-- `vec(x, y)`: the accumulated angle as a stored `RAD` value (R180). -/
def vec (bd : Build) (x y : Int) : Int :=
  rdiv (vecLoop (cordicTable bd) 0 { x := x, y := y, z := 0 }).z (2 ^ ash bd)

/-- `cofac(s)`: the other leg of the triangle with hypotenuse 1.0, 8 extra bits (R182). -/
def cofac (bd : Build) (v : Int) : Int :=
  (isqrt (shl (sNum bd * sNum bd - v * v) 16).toNat : Nat)

/-- The angle ASIN writes for `abs(a) <= S_NUM` (R183). -/
def arcsine (bd : Build) (a : Int) : Int :=
  let t := vec bd (shl (cofac bd a) 4) (shl a.natAbs 12)
  if a < 0 then -t else t

/-- ASIN (R183): `DOMAIN` outside [-1.0, 1.0]. -/
def execAsin (s : State) : Result :=
  if sNum s.build < s.opA.natAbs then faultNext .domain s
  else .next (s.setR (wrap16 (arcsine s.build s.opA)))

/-- The angle ACOS writes for `abs(a) <= S_NUM` (R184). -/
def arccosine (bd : Build) (a : Int) : Int :=
  let c := cofac bd a
  if 0 < a then vec bd (shl a 12) (shl c 4)
  else cHalfPi bd + vec bd (shl c 4) (shl (-a) 12)

/-- ACOS (R184): `DOMAIN` outside [-1.0, 1.0]. -/
def execAcos (s : State) : Result :=
  if sNum s.build < s.opA.natAbs then faultNext .domain s
  else .next (s.setR (wrap16 (arccosine s.build s.opA)))

/-- The angle ATAN writes (R185). -/
def arctangent (bd : Build) (a : Int) : Int :=
  let t := vec bd (shl (sNum bd) 12) (shl a.natAbs 12)
  if a < 0 then -t else t

/-- ATAN (R185): every operand is valid. -/
def execAtan (s : State) : Result := .next (s.setR (wrap16 (arctangent s.build s.opA)))

/-- The angle ATAN2 writes for `(y, x)` not the origin (R186). -/
def arctangent2 (bd : Build) (y x : Int) : Int :=
  if 0 ≤ y ∧ 0 < x then vec bd (shl x 12) (shl y 12)
  else if (0 < y ∧ x ≤ 0) ∨ (y = 0 ∧ x < 0) then cHalfPi bd + vec bd (shl y 12) (shl (-x) 12)
  else if y < 0 ∧ x < 0 then vec bd (shl (-x) 12) (shl (-y) 12) - cPi bd
  else vec bd (shl (-y) 12) (shl x 12) - cHalfPi bd

/-- ATAN2 (R186): `A` is y, `B` is x; `DOMAIN` for the zero vector. -/
def execAtan2 (s : State) : Result :=
  if s.opB = 0 ∧ s.opA = 0 then faultNext .domain s
  else .next (s.setR (wrap16 (arctangent2 s.build s.opA s.opB)))

end Sys2Proof.Machine
end

