-- ==== Sys2Proof/Machine/Scaling.lean ====
section
/-! DEFINITION. The Q-format scaling commands (41_scaling.md R110 to R115). -/

namespace Sys2Proof.Machine

/-- SPLIT.k (R110): whole part with the operand's sign, non-negative fraction, sign in `NEG`. -/
def execSplit (k : Kind) (s : State) : Result :=
  let m : Int := s.opA.natAbs
  let w := m / scale s.build k
  let f := m % scale s.build k
  .next (((s.setR (wrap16 (if s.opA < 0 then -w else w))).setRH (wrap16 f)).setNeg (isNegative s.opA))

/-- The value JOIN and JOINN form: `±(abs(a) * S + b)` (R111). -/
def joinValue (bd : Build) (k : Kind) (negative : Bool) (a b : Int) : Int :=
  let m := (a.natAbs : Int) * scale bd k + b
  if negative then -m else m

/-- JOIN.k (R111): the sign is the whole part's; `DOMAIN` when the fraction is not in `0 .. S - 1`. -/
def execJoin (k : Kind) (s : State) : Result :=
  if s.opB < 0 ∨ scale s.build k ≤ s.opB then faultNext .domain s
  else .next (s.setResultOvf (joinValue s.build k (isNegative s.opA) s.opA s.opB))

/-- JOINN.k (R111): as JOIN, but the value is forced negative. -/
def execJoinn (k : Kind) (s : State) : Result :=
  if s.opB < 0 ∨ scale s.build k ≤ s.opB then faultNext .domain s
  else .next (s.setResultOvf (joinValue s.build k true s.opA s.opB))

/-- TOBIN (R112): `(a * 128 + 50) div 100`, floor division, in every build. -/
def execTobin (s : State) : Result := .next (s.setResultOvf ((s.opA * 128 + 50) / 100))

/-- TODEC (R113): `(a * 100 + 64) >> 7`; no flag. -/
def execTodec (s : State) : Result := .next (s.setR (wrap16 (asr (s.opA * 100 + 64) 7)))

/-- PRESC.k (R114): `{RH, R} <- a * S`. -/
def execPresc (k : Kind) (s : State) : Result := .next (s.setPair (s.opA * scale s.build k))

/-- FIXSC.k (R115): the 32-bit value `{B, A}` divided by the scale, rounded and narrowed. -/
def execFixsc (k : Kind) (s : State) : Result := .next (s.setResultOvf (rdiv s.opBA (scale s.build k)))

end Sys2Proof.Machine
end

