-- ==== Sys2Proof/Machine/System.lean ====
section
/-! DEFINITION. The system commands (40_system.md R100 to R103). -/

namespace Sys2Proof.Machine

/-- NOP (R100). -/
def execNop (s : State) : Result := .next s

/-- CLRF (R101). -/
def execClrf (s : State) : Result := .next s.clearFlags

/-- CONST.M (R102). -/
def execConst (m : BitVec 4) (s : State) : Result := .next (s.setPair (constVal s.build m))

/-- CTAB (R103): `DOMAIN` when the index is outside the table. -/
def execCtab (s : State) : Result :=
  if s.opA < 0 ∨ (cordicN s.build : Int) ≤ s.opA then faultNext .domain s
  else .next (s.setPair ((cordicTable s.build).getD s.opA.toNat 0))

end Sys2Proof.Machine
end

