-- ==== Sys2Proof/Machine/Transcendental.lean ====
section
/-! DEFINITION. The transcendental layer (45_transcendental.md R200 to R216). -/

namespace Sys2Proof.Machine

/-- The series of `ln16` in Horner form over the divisors still to come (R201). -/
def lnSeries (u2 : Int) : List Int → Int → Int
  | [], acc => acc
  | d :: ds, acc => lnSeries u2 ds (32768 / d + asr (u2 * acc) 15)

/-- `ln16(n)` for `1 <= n <= 32767`: the natural logarithm of `n / S_NUM` at scale 65536 (R201). -/
def ln16 (bd : Build) (n : Nat) : Int :=
  let p := n.log2
  let m15 := shl (n : Int) (15 - p)
  let u := shl (m15 - 32768) 15 / (m15 + 32768)
  let u2 := asr (u * u) 15
  let ser := lnSeries u2 [9, 7, 5, 3, 1] (32768 / 11)
  asr (u * ser) 13 + (p : Int) * ln2At16 - lnScaleAt16 bd

/-- The value LN writes for the operand `a`: the sentinel for a non-positive one (R202). -/
def naturalLog (bd : Build) (a : Int) : Int :=
  if a ≤ 0 then sent bd else rdiv (ln16 bd a.toNat * sNum bd) 65536

/-- LN (R202): no flag, no fault. -/
def execLn (s : State) : Result := .next (s.setR (wrap16 (naturalLog s.build s.opA)))

/-- LOGB (R203): base in `A`, argument in `B`; the sentinel test comes before the zero test. -/
def execLogb (s : State) : Result :=
  let la := naturalLog s.build s.opA
  let lnB := naturalLog s.build s.opB
  if la = sent s.build ∨ lnB = sent s.build then .next ((s.setR (wrap16 (sent s.build))).setOvf false)
  else if la = 0 then faultNext .divzero s
  else .next (s.setResultOvf (rdivs (lnB * sNum s.build) la))

/-- LOG10 (R204). -/
def execLog10 (s : State) : Result :=
  let l := naturalLog s.build s.opA
  if l = sent s.build then .next (s.setR (wrap16 (sent s.build)))
  else .next (s.setR (wrap16 (rdivs (l * sNum s.build) (cLn10 s.build))))

/-- The Taylor series of `exp_ref` in Horner form over the divisors still to come (R208). -/
def expSeries (t : Int) : List Int → Int → Int
  | [], e => e
  | d :: ds, e => expSeries t ds (32768 + t * e / (d * 32768))

/-- The unsaturated quotient of `exp_ref` for exponent `k` and mantissa `e` (R208). -/
def expScaled (bd : Build) (k e : Int) : Int :=
  match bd.isBin with
  | true => if 0 ≤ k then rdiv (shl e k.toNat) 256 else rdiv e (shl 256 (-k).toNat)
  | false => if 0 ≤ k then rdiv (shl (e * 100) k.toNat) 32768 else rdiv (e * 100) (shl 32768 (-k).toNat)

/-- A value with its overflow flag. -/
structure Flagged where
  val : Int
  ovf : Bool
  deriving DecidableEq, Repr

/-- `exp_ref(a)` (R208). -/
def expRef (bd : Build) (a : Int) : Flagged :=
  let xs := match bd.isBin with
    | true => shl a 9
    | false => rdiv (a * 16384) 25
  let k := xs / ln2At16
  let rr := xs - k * ln2At16
  let e := expSeries (asr rr 1) [7, 6, 5, 4, 3, 2, 1] 32768
  if 9 ≤ k then { val := 32767, ovf := true }
  else if k < -15 then { val := 0, ovf := false }
  else if 32767 < expScaled bd k e then { val := 32767, ovf := true }
  else { val := expScaled bd k e, ovf := false }

/-- EXP (R209). -/
def execExp (s : State) : Result :=
  .next ((s.setR (wrap16 (expRef s.build s.opA).val)).setOvf (expRef s.build s.opA).ovf)

/-- `root(a, n)`: the `r` in 0 .. 32767 that minimises `abs(r^n - a * S_NUM^(n-1))`, by 15 bisection steps and
one comparison with the next integer (R212). -/
def root (bd : Build) (a n : Nat) : Nat :=
  let target := a * (sNum bd).toNat ^ (n - 1)
  let lo := bisect (fun r => decide (r ^ n ≤ target)) 15 0
  if lo < 32767 ∧ (lo + 1) ^ n - target < target - lo ^ n then lo + 1 else lo

/-- ROOT (R213): `DOMAIN` for a negative radicand or `n < 1`. -/
def execRoot (s : State) : Result :=
  if s.opA < 0 ∨ s.opB < 1 then faultNext .domain s
  else .next (s.setR (wrap16 (root s.build s.opA.toNat s.opB.toNat)))

/-- SQRT (R214): `B` is not read. -/
def execSqrt (s : State) : Result :=
  if s.opA < 0 then faultNext .domain s
  else .next (s.setR (wrap16 (root s.build s.opA.toNat 2)))

/-- ROOTOV (R215): 1 for operands ROOT would fault on; never a fault. -/
def execRootov (s : State) : Result :=
  if s.opA < 0 ∨ s.opB < 1 then .next (s.setOvf true)
  else .next (s.judge (root s.build s.opA.toNat s.opB.toNat))

/-- One step of FACT: multiply by the factor `i`, narrow (R216). -/
def factStep (i : Nat) (p : Running) : Running := p.narrow (p.acc * (i : Int))

/-- The product and flag of R216 for `n <= 32767`: the factors 1 .. `n` in turn. -/
def factorial (bd : Build) (n : Nat) : Running := runHalves factStep 16 1 n { acc := sNum bd, ov := false }

/-- FACT (R216): `DOMAIN` when `n < 0`. -/
def execFact (s : State) : Result :=
  if s.opA < 0 then faultNext .domain s
  else
    let p := factorial s.build s.opA.toNat
    .next ((s.setR (wrap16 p.acc)).setOvf p.ov)

end Sys2Proof.Machine
end

