-- ==== Sys2Proof/Machine/Dispatch.lean ====
section
/-! DEFINITION. One arm per command: its meaning (30_encoding.md R84, R90). -/

namespace Sys2Proof.Machine

def exec (i : Instr) (s : State) : Host.Outcome State Fault Refusal :=
  match i with
  | .nop => Sys2Proof.Machine.execNop s
  | .clrf => Sys2Proof.Machine.execClrf s
  | .const m => Sys2Proof.Machine.execConst m s
  | .ctab => Sys2Proof.Machine.execCtab s
  | .split k => Sys2Proof.Machine.execSplit k s
  | .join k => Sys2Proof.Machine.execJoin k s
  | .joinn k => Sys2Proof.Machine.execJoinn k s
  | .tobin => Sys2Proof.Machine.execTobin s
  | .todec => Sys2Proof.Machine.execTodec s
  | .presc k => Sys2Proof.Machine.execPresc k s
  | .fixsc k => Sys2Proof.Machine.execFixsc k s
  | .mul k => Sys2Proof.Machine.execMul k s
  | .mulov k => Sys2Proof.Machine.execMulov k s
  | .div k => Sys2Proof.Machine.execDiv k s
  | .divov k => Sys2Proof.Machine.execDivov k s
  | .add => Sys2Proof.Machine.execAdd s
  | .addov => Sys2Proof.Machine.execAddov s
  | .sub => Sys2Proof.Machine.execSub s
  | .subov => Sys2Proof.Machine.execSubov s
  | .adds => Sys2Proof.Machine.execAdds s
  | .subs => Sys2Proof.Machine.execSubs s
  | .pow => Sys2Proof.Machine.execPow s
  | .powov => Sys2Proof.Machine.execPowov s
  | .sin => Sys2Proof.Machine.execSin s
  | .cos => Sys2Proof.Machine.execCos s
  | .sincos => Sys2Proof.Machine.execSincos s
  | .tan => Sys2Proof.Machine.execTan s
  | .asin => Sys2Proof.Machine.execAsin s
  | .acos => Sys2Proof.Machine.execAcos s
  | .atan => Sys2Proof.Machine.execAtan s
  | .atan2 => Sys2Proof.Machine.execAtan2 s
  | .ln => Sys2Proof.Machine.execLn s
  | .logb => Sys2Proof.Machine.execLogb s
  | .log10 => Sys2Proof.Machine.execLog10 s
  | .exp => Sys2Proof.Machine.execExp s
  | .root => Sys2Proof.Machine.execRoot s
  | .sqrt => Sys2Proof.Machine.execSqrt s
  | .rootov => Sys2Proof.Machine.execRootov s
  | .fact => Sys2Proof.Machine.execFact s
  | .d2r => Sys2Proof.Machine.execD2r s
  | .r2d => Sys2Proof.Machine.execR2d s
  | .gcd => Sys2Proof.Machine.execGcd s
  | .ratio => Sys2Proof.Machine.execRatio s
  | .scaleu => Sys2Proof.Machine.execScaleu s
  | .scaled => Sys2Proof.Machine.execScaled s

end Sys2Proof.Machine
end

