-- ==== Sys2Proof/Decode.lean ====
section
/-! DEFINITION. Decoding a command word (30_encoding.md R80 to R85), and the encoder written from the same
table (R84: the command word is `OP + 64*K + 256*M`). -/

namespace Sys2Proof

/-- Why a command word is illegal. All four reasons raise the same cause, `ILLCMD` (R85). -/
inductive Illegal where
  /-- `Z` is not 0. -/
  | reservedBits
  /-- `OP` is no opcode of the map. -/
  | unusedOpcode
  /-- `K` is outside the row's set. -/
  | kindField
  /-- `M` is outside the row's set. -/
  | modifierField
  deriving DecidableEq, Repr

/-- `OP = d[5:0]` (R80). -/
def opField (d : Word) : Nat := (d.extractLsb' 0 6).toNat

/-- `K = d[7:6]` (R80). -/
def kField (d : Word) : Nat := (d.extractLsb' 6 2).toNat

/-- `M = d[11:8]` (R80). -/
def mField (d : Word) : BitVec 4 := d.extractLsb' 8 4

/-- `Z = d[15:12]` (R80). -/
def zField (d : Word) : Nat := (d.extractLsb' 12 4).toNat

/-- The kind with K code `k`; 3 is no kind (R10, R80). -/
def kindOfCode (k : Nat) : Option Kind :=
  match k with
  | 0 => some .num
  | 1 => some .deg
  | 2 => some .rad
  | _ => none

/-- A row whose K and M must both be 0 (R84). -/
def decodeFixed (d : Word) (i : Instr) : Except Illegal Instr :=
  if kField d ≠ 0 then .error .kindField
  else if mField d ≠ 0 then .error .modifierField
  else .ok i

/-- A row that takes a kind and requires M = 0 (R82, R84). -/
def decodeKinded (d : Word) (f : Kind → Instr) : Except Illegal Instr :=
  match kindOfCode (kField d) with
  | none => .error .kindField
  | some k => if mField d ≠ 0 then .error .modifierField else .ok (f k)

/-- CONST: K = 0, every M is an index (R82, R102). -/
def decodeConst (d : Word) : Except Illegal Instr :=
  if kField d ≠ 0 then .error .kindField else .ok (.const (mField d))

/-- Opcode 0x05: M = 0 is JOIN, M = 1 is JOINN (R82, R111). -/
def decodeJoin (d : Word) : Except Illegal Instr :=
  match kindOfCode (kField d) with
  | none => .error .kindField
  | some k =>
    if mField d = 0 then .ok (.join k)
    else if mField d = 1 then .ok (.joinn k)
    else .error .modifierField

/-- Opcode 0x34: M = 0 is SCALEU, M = 1 is SCALED (R82, R238, R239). -/
def decodeScale (d : Word) : Except Illegal Instr :=
  if kField d ≠ 0 then .error .kindField
  else if mField d = 0 then .ok .scaleu
  else if mField d = 1 then .ok .scaled
  else .error .modifierField

/-- The command a word stands for, or the reason it is illegal. Total: every word gets one of the two
(R83, R84, R85). -/
def decode (d : Word) : Except Illegal Instr :=
  if zField d ≠ 0 then .error .reservedBits
  else
    match opField d with
    | 0x00 => decodeFixed d .nop
    | 0x01 => decodeFixed d .clrf
    | 0x02 => decodeConst d
    | 0x03 => decodeFixed d .ctab
    | 0x04 => decodeKinded d .split
    | 0x05 => decodeJoin d
    | 0x06 => decodeFixed d .tobin
    | 0x07 => decodeFixed d .todec
    | 0x08 => decodeKinded d .presc
    | 0x09 => decodeKinded d .fixsc
    | 0x10 => decodeKinded d .mul
    | 0x11 => decodeKinded d .mulov
    | 0x12 => decodeKinded d .div
    | 0x13 => decodeKinded d .divov
    | 0x14 => decodeFixed d .add
    | 0x15 => decodeFixed d .addov
    | 0x16 => decodeFixed d .sub
    | 0x17 => decodeFixed d .subov
    | 0x18 => decodeFixed d .adds
    | 0x19 => decodeFixed d .subs
    | 0x1A => decodeFixed d .pow
    | 0x1B => decodeFixed d .powov
    | 0x20 => decodeFixed d .sin
    | 0x21 => decodeFixed d .cos
    | 0x22 => decodeFixed d .sincos
    | 0x23 => decodeFixed d .tan
    | 0x24 => decodeFixed d .asin
    | 0x25 => decodeFixed d .acos
    | 0x26 => decodeFixed d .atan
    | 0x27 => decodeFixed d .atan2
    | 0x28 => decodeFixed d .ln
    | 0x29 => decodeFixed d .logb
    | 0x2A => decodeFixed d .log10
    | 0x2B => decodeFixed d .exp
    | 0x2C => decodeFixed d .root
    | 0x2D => decodeFixed d .sqrt
    | 0x2E => decodeFixed d .rootov
    | 0x2F => decodeFixed d .fact
    | 0x30 => decodeFixed d .d2r
    | 0x31 => decodeFixed d .r2d
    | 0x32 => decodeFixed d .gcd
    | 0x33 => decodeFixed d .ratio
    | 0x34 => decodeScale d
    | _ => .error .unusedOpcode

/-- The K code of a kind (R10). -/
def kindCode (k : Kind) : Nat :=
  match k with
  | .num => 0
  | .deg => 1
  | .rad => 2

/-- The command word `OP + 64*K + 256*M` (R84). -/
def commandWord (op k m : Nat) : Word := BitVec.ofNat 16 (op + 64 * k + 256 * m)

/-- The word of a command (R84). -/
def encode (i : Instr) : Word :=
  match i with
  | .nop => commandWord 0x00 0 0
  | .clrf => commandWord 0x01 0 0
  | .const m => commandWord 0x02 0 m.toNat
  | .ctab => commandWord 0x03 0 0
  | .split k => commandWord 0x04 (kindCode k) 0
  | .join k => commandWord 0x05 (kindCode k) 0
  | .joinn k => commandWord 0x05 (kindCode k) 1
  | .tobin => commandWord 0x06 0 0
  | .todec => commandWord 0x07 0 0
  | .presc k => commandWord 0x08 (kindCode k) 0
  | .fixsc k => commandWord 0x09 (kindCode k) 0
  | .mul k => commandWord 0x10 (kindCode k) 0
  | .mulov k => commandWord 0x11 (kindCode k) 0
  | .div k => commandWord 0x12 (kindCode k) 0
  | .divov k => commandWord 0x13 (kindCode k) 0
  | .add => commandWord 0x14 0 0
  | .addov => commandWord 0x15 0 0
  | .sub => commandWord 0x16 0 0
  | .subov => commandWord 0x17 0 0
  | .adds => commandWord 0x18 0 0
  | .subs => commandWord 0x19 0 0
  | .pow => commandWord 0x1A 0 0
  | .powov => commandWord 0x1B 0 0
  | .sin => commandWord 0x20 0 0
  | .cos => commandWord 0x21 0 0
  | .sincos => commandWord 0x22 0 0
  | .tan => commandWord 0x23 0 0
  | .asin => commandWord 0x24 0 0
  | .acos => commandWord 0x25 0 0
  | .atan => commandWord 0x26 0 0
  | .atan2 => commandWord 0x27 0 0
  | .ln => commandWord 0x28 0 0
  | .logb => commandWord 0x29 0 0
  | .log10 => commandWord 0x2A 0 0
  | .exp => commandWord 0x2B 0 0
  | .root => commandWord 0x2C 0 0
  | .sqrt => commandWord 0x2D 0 0
  | .rootov => commandWord 0x2E 0 0
  | .fact => commandWord 0x2F 0 0
  | .d2r => commandWord 0x30 0 0
  | .r2d => commandWord 0x31 0 0
  | .gcd => commandWord 0x32 0 0
  | .ratio => commandWord 0x33 0 0
  | .scaleu => commandWord 0x34 0 0
  | .scaled => commandWord 0x34 0 1

/-- The command the decoder reads from the opcode table's word `w` of `nbits` bits. A command is exactly one
16-bit word (R80), so a number that needs more bits is no command. -/
def decodeTableWord (nbits w : Nat) : Option Instr :=
  if w % 2 ^ nbits < 2 ^ 16 then
    match decode (BitVec.ofNat 16 (w % 2 ^ nbits)) with
    | .ok i => some i
    | .error _ => none
  else none

end Sys2Proof
end

