-- ==== Sys2Proof/Machine/Port.lean ====
section
/-! DEFINITION. The port: what the next completed access of the host does (20_memory.md R61, R62, R68;
30_encoding.md R90, R91; 70_reset_and_hazards.md R270). -/

namespace Sys2Proof.Machine

/-- What the port hands on: an access it has completed by itself, or a legal command to execute. -/
inductive PortAction where
  | complete (s : State)
  | command (i : Instr) (s : State)
  deriving DecidableEq, Repr

/-- The address of `CMD` (R63). -/
def cmdAddr : BitVec 3 := 4

/-- A write of the word `d` to `CMD` (R90): an illegal word raises `ILLCMD` before anything is looked at. -/
def portCommand (d : Word) (s : State) : PortAction :=
  match decode d with
  | .ok i => .command i s
  | .error _ => .complete (s.raise .illcmd)

/-- One access. A read appends the word it returns to the host's replies and changes nothing of the unit
(R61). -/
def portAccess (acc : Access) (s : State) : PortAction :=
  match acc with
  | .read addr => .complete { s with replies := s.replies ++ [s.hostRead addr] }
  | .write addr d => if addr = cmdAddr then portCommand d s else .complete (s.hostStore addr d)
  | .reset => .complete s.resetUnit

/-- The oldest access not yet performed; the idle unit holds its state (R68, R264). -/
def portNext (s : State) : PortAction :=
  match s.requests with
  | [] => .complete s
  | acc :: rest => portAccess acc { s with requests := rest }

/-- The host writes the command word `d` to `CMD` next (log 2). -/
def State.requestCommand (s : State) (d : Word) : State :=
  { s with requests := .write cmdAddr d :: s.requests }

end Sys2Proof.Machine
end

