-- ==== Sys2Proof/Machine/Step.lean ====
section
/-! DEFINITION. One step: the next access of the host, completely (20_memory.md R68, 30_encoding.md R90, R91). -/

namespace Sys2Proof.Machine

/-- One access of the host takes effect; a legal command is executed (R90). -/
def step (s : State) : Host.Outcome State Fault Refusal :=
  match portNext s with
  | .complete t => .next t
  | .command i t => exec i t

/-- The host's next access is the write to `CMD` of the opcode table's word `w`: commands come from outside
the machine, so this stands for the host issuing one (R36, R71; log 2). -/
def State.withFetchWord (s : State) (nbits w : Nat) : State :=
  s.requestCommand (BitVec.ofNat 16 (w % 2 ^ nbits))

end Sys2Proof.Machine
end

