-- ==== Sys2Proof/Safety.lean ====
section
/-! DEFINITION. The terms claims use: the opcode map's columns (30_encoding.md R84), what a sound fault record
is (10_state.md R41), what a recorded fault leaves behind (60_exceptions.md R252), what a safe run is, and the
rules' results said as relations (rounding, wrapping, the iterations) instead of as functions. -/

namespace Sys2Proof

open Sys2Proof.Machine

/-! ## The opcode map's columns -/

/-- One row of R84: the operand registers a command reads, the registers and flags it writes when it does not
fault, and the causes it can record. CLRF's write of `PV` and `CAUSE` is said apart (R101). -/
structure Effects where
  readsA : Bool := false
  readsB : Bool := false
  readsR : Bool := false
  writesR : Bool := false
  writesRH : Bool := false
  writesOvf : Bool := false
  writesNeg : Bool := false
  faults : List FaultCause := []
  deriving DecidableEq, Repr

/-- The columns "reads", "writes" and "faults" of R84. -/
def effects (i : Instr) : Effects :=
  match i with
  | .nop => { }
  | .clrf => { writesOvf := true, writesNeg := true }
  | .const _ => { writesR := true, writesRH := true }
  | .ctab => { readsA := true, writesR := true, writesRH := true, faults := [.domain] }
  | .split _ => { readsA := true, writesR := true, writesRH := true, writesNeg := true }
  | .join _ => { readsA := true, readsB := true, writesR := true, writesOvf := true, faults := [.domain] }
  | .joinn _ => { readsA := true, readsB := true, writesR := true, writesOvf := true, faults := [.domain] }
  | .tobin => { readsA := true, writesR := true, writesOvf := true }
  | .todec => { readsA := true, writesR := true }
  | .presc _ => { readsA := true, writesR := true, writesRH := true }
  | .fixsc _ => { readsA := true, readsB := true, writesR := true, writesOvf := true }
  | .mul _ => { readsA := true, readsB := true, writesR := true }
  | .mulov _ => { readsA := true, readsB := true, readsR := true, writesOvf := true }
  | .div _ => { readsA := true, readsB := true, writesR := true, faults := [.divzero] }
  | .divov _ => { readsA := true, readsB := true, readsR := true, writesOvf := true }
  | .add => { readsA := true, readsB := true, writesR := true }
  | .addov => { readsA := true, readsB := true, readsR := true, writesOvf := true }
  | .sub => { readsA := true, readsB := true, writesR := true }
  | .subov => { readsA := true, readsB := true, readsR := true, writesOvf := true }
  | .adds => { readsA := true, readsB := true, writesR := true, writesOvf := true }
  | .subs => { readsA := true, readsB := true, writesR := true, writesOvf := true }
  | .pow => { readsA := true, readsB := true, writesR := true, writesOvf := true, faults := [.domain] }
  | .powov => { readsA := true, readsB := true, readsR := true, writesOvf := true }
  | .sin => { readsA := true, writesR := true }
  | .cos => { readsA := true, writesR := true }
  | .sincos => { readsA := true, writesR := true, writesRH := true }
  | .tan => { readsA := true, writesR := true, faults := [.divzero] }
  | .asin => { readsA := true, writesR := true, faults := [.domain] }
  | .acos => { readsA := true, writesR := true, faults := [.domain] }
  | .atan => { readsA := true, writesR := true }
  | .atan2 => { readsA := true, readsB := true, writesR := true, faults := [.domain] }
  | .ln => { readsA := true, writesR := true }
  | .logb => { readsA := true, readsB := true, writesR := true, writesOvf := true, faults := [.divzero] }
  | .log10 => { readsA := true, writesR := true }
  | .exp => { readsA := true, writesR := true, writesOvf := true }
  | .root => { readsA := true, readsB := true, writesR := true, faults := [.domain] }
  | .sqrt => { readsA := true, writesR := true, faults := [.domain] }
  | .rootov => { readsA := true, readsB := true, readsR := true, writesOvf := true }
  | .fact => { readsA := true, writesR := true, writesOvf := true, faults := [.domain] }
  | .d2r => { readsA := true, writesR := true, writesOvf := true }
  | .r2d => { readsA := true, writesR := true, writesOvf := true }
  | .gcd => { readsA := true, readsB := true, writesR := true }
  | .ratio => { readsA := true, writesR := true, faults := [.domain] }
  | .scaleu => { readsA := true, readsB := true, writesR := true, writesOvf := true }
  | .scaled => { readsA := true, readsB := true, writesR := true, writesOvf := true, faults := [.divzero] }

/-! ## Faults and safe runs -/

/-- A sound fault record: `CAUSE ≠ 0` exactly when `PV = 1`, and no code above 3 (R41). -/
abbrev FaultRecordSound (s : State) : Prop := (s.cause ≠ 0 ↔ s.pv = true) ∧ s.cause.toNat ≤ 3

/-- What a fault with cause code `c` leaves: `PV` set, the first cause kept, nothing else changed (R252). -/
def afterFault (s : State) (c : BitVec 3) : State :=
  { s with pv := true, cause := if s.pv = true then s.cause else c }

/-- No run from `s` ever stops: "nothing it can do is refused, and nothing it does can hang the unit" (R74). -/
def RunsForever (s : State) : Prop := ∀ n : Nat, ∃ t : State, Host.Core.run core n s = .next t

/-! ## Numbers -/

/-- `q` is `p / d` rounded to the nearest integer, ties away from zero, for `d ≠ 0` of either sign (R17). -/
def IsNearest (p d q : Int) : Prop :=
  d ≠ 0 ∧ 2 * |p - q * d| ≤ |d| ∧ (2 * |p - q * d| = |d| → |p| ≤ |q * d|)

/-- The pattern `w` is `v` modulo 65536 (R15). -/
def IsPattern (w : Word) (v : Int) : Prop := (65536 : Int) ∣ v - w.toInt

/-- `v` does not fit the 16-bit signed range (R15, R38). -/
abbrev OutOfRange (v : Int) : Prop := v < -32768 ∨ 32767 < v

/-! ## The constant data as the spec prints it -/

/-- The table of R102, column by column. -/
def printedConstants (bd : Build) : List Int :=
  match bd with
  | .dec =>
    [100, 10, 1000, 3142, 6283, 1571, 4712, 272, 230, 573, 17, -9900, 15, 6073, 10000000, 100000]
  | .binQ510 =>
    [128, 16, 1024, 3217, 6434, 1608, 4825, 348, 295, 917, 18, -12672, 14, 19898, 4194304, 16384]
  | .binQ69 =>
    [128, 16, 512, 1608, 3217, 804, 2413, 348, 295, 917, 9, -12672, 14, 19898, 4194304, 16384]

/-- The table of R161, column by column. -/
def printedTable (bd : Build) : List Int :=
  match bd with
  | .dec => [50265, 29673, 15679, 7959, 3995, 1999, 1000, 500, 250, 125, 62, 31, 16, 8, 4]
  | .binQ510 => [51472, 30386, 16055, 8150, 4091, 2047, 1024, 512, 256, 128, 64, 32, 16, 8]
  | .binQ69 => [51472, 30386, 16055, 8150, 4091, 2047, 1024, 512, 256, 128, 64, 32, 16, 8]

/-! ## The iterations, as relations between the values before and after each step -/

/-- The running product of POW: `acc 0` is 1.0, each step is a MUL by `a` narrowed to 16 bits, and the flag
remembers any step that did not fit (R141). -/
def IsPowerRun (bd : Build) (a : Int) (n : Nat) (res : Int) (ov : Bool) : Prop :=
  ∃ acc q : Nat → Int,
    acc 0 = scale bd .num ∧
    (∀ j < n, IsNearest (acc j * a) (scale bd .num) (q j) ∧ (65536 : Int) ∣ q j - acc (j + 1) ∧
      ¬ OutOfRange (acc (j + 1))) ∧
    acc n = res ∧ (ov = true ↔ ∃ j < n, OutOfRange (q j))

/-- The running product of FACT: from 1.0, multiplied by 1, 2, … `n`, narrowed at each step (R216). -/
def IsFactorialRun (bd : Build) (n : Nat) (res : Int) (ov : Bool) : Prop :=
  ∃ acc q : Nat → Int,
    acc 0 = scale bd .num ∧
    (∀ j < n, q j = acc j * (j + 1) ∧ (65536 : Int) ∣ q j - acc (j + 1) ∧ ¬ OutOfRange (acc (j + 1))) ∧
    acc n = res ∧ (ov = true ↔ ∃ j < n, OutOfRange (q j))

/-- `theta` and the two signs are what unwinding the stored angle `phi` gives (R164). -/
def IsUnwound (bd : Build) (phi theta ssin scos : Int) : Prop :=
  ∃ r : Int, 0 ≤ r ∧ r < cTwoPi bd ∧ cTwoPi bd ∣ phi - r ∧
    ((r ≤ cHalfPi bd ∧ theta = r ∧ ssin = 1 ∧ scos = 1) ∨
     (cHalfPi bd < r ∧ r ≤ cPi bd ∧ theta = cPi bd - r ∧ ssin = 1 ∧ scos = -1) ∨
     (cPi bd < r ∧ r ≤ cThreeHalfPi bd ∧ theta = r - cPi bd ∧ ssin = -1 ∧ scos = -1) ∨
     (cThreeHalfPi bd < r ∧ theta = cTwoPi bd - r ∧ ssin = -1 ∧ scos = 1))

/-- The rotation kernel takes the reduced angle `theta` to the vector `(x, y)` before length correction: the
sequences are the working registers before iteration 0, 1, … `CORDIC_N` (R167). -/
def IsRotation (bd : Build) (theta x y : Int) : Prop :=
  ∃ xs ys zs : Nat → Int,
    xs 0 = cordicUnit bd ∧ ys 0 = 0 ∧ zs 0 = theta * 2 ^ ash bd ∧
    (∀ i < cordicN bd,
      (0 ≤ zs i ∧ xs (i + 1) = xs i - ys i / 2 ^ i ∧ ys (i + 1) = ys i + xs i / 2 ^ i ∧
        zs (i + 1) = zs i - (printedTable bd).getD i 0) ∨
      (zs i < 0 ∧ xs (i + 1) = xs i + ys i / 2 ^ i ∧ ys (i + 1) = ys i - xs i / 2 ^ i ∧
        zs (i + 1) = zs i + (printedTable bd).getD i 0)) ∧
    xs (cordicN bd) = x ∧ ys (cordicN bd) = y

/-- `angle` is `vec(x, y)`: the vectoring kernel's accumulated angle, rounded to a stored one (R180). -/
def IsVectoring (bd : Build) (x y angle : Int) : Prop :=
  ∃ xs ys zs : Nat → Int,
    xs 0 = x ∧ ys 0 = y ∧ zs 0 = 0 ∧
    (∀ i < cordicN bd,
      (0 ≤ ys i ∧ xs (i + 1) = xs i + ys i / 2 ^ i ∧ ys (i + 1) = ys i - xs i / 2 ^ i ∧
        zs (i + 1) = zs i + (printedTable bd).getD i 0) ∨
      (ys i < 0 ∧ xs (i + 1) = xs i - ys i / 2 ^ i ∧ ys (i + 1) = ys i + xs i / 2 ^ i ∧
        zs (i + 1) = zs i - (printedTable bd).getD i 0)) ∧
    IsNearest (zs (cordicN bd)) (2 ^ ash bd) angle

/-- `c` is `cofac(v)`: the largest non-negative integer whose square is at most `(S_NUM² - v²) << 16` (R182). -/
def IsCofactor (bd : Build) (v c : Int) : Prop :=
  0 ≤ c ∧ c * c ≤ (scale bd .num * scale bd .num - v * v) * 65536 ∧
    (scale bd .num * scale bd .num - v * v) * 65536 < (c + 1) * (c + 1)

/-- `l` is `ln16(n)` (R201): `p` is the place of the top bit of `n`, `ser` the Horner values of the series. -/
def IsLn16 (bd : Build) (n l : Int) : Prop :=
  ∃ (p : Nat) (m15 u u2 : Int) (ser : Nat → Int),
    2 ^ p ≤ n ∧ n < 2 ^ (p + 1) ∧ p ≤ 14 ∧
    m15 = n * 2 ^ (15 - p) ∧
    u = (m15 - 32768) * 32768 / (m15 + 32768) ∧
    u2 = u * u / 32768 ∧
    ser 0 = 2978 ∧
    (∀ j < 5, ser (j + 1) = [3640, 4681, 6553, 10922, 32768].getD j 0 + u2 * ser j / 32768) ∧
    l = u * ser 5 / 8192 + p * 45426 - (if bd = .dec then 301804 else 317982)

/-- `(v, ovf)` is `exp_ref(a)` (R208): `xs = k * LN2_16 + f`, `e` the Horner values of the Taylor series. -/
def IsExpRef (bd : Build) (a v : Int) (ovf : Bool) : Prop :=
  ∃ (xs k f : Int) (e : Nat → Int),
    (if bd = .dec then IsNearest (a * 16384) 25 xs else xs = a * 512) ∧
    xs = k * 45426 + f ∧ 0 ≤ f ∧ f < 45426 ∧
    e 0 = 32768 ∧ (∀ j < 7, e (j + 1) = 32768 + f / 2 * e j / ((7 - j) * 32768)) ∧
    ((9 ≤ k ∧ v = 32767 ∧ ovf = true) ∨
     (k < -15 ∧ v = 0 ∧ ovf = false) ∨
     (-15 ≤ k ∧ k < 9 ∧ ∃ q : Int,
        (if bd = .dec then
          (if 0 ≤ k then IsNearest (e 7 * 100 * 2 ^ k.toNat) 32768 q
           else IsNearest (e 7 * 100) (32768 * 2 ^ (-k).toNat) q)
         else
          (if 0 ≤ k then IsNearest (e 7 * 2 ^ k.toNat) 256 q else IsNearest (e 7) (256 * 2 ^ (-k).toNat) q)) ∧
        ((32767 < q ∧ v = 32767 ∧ ovf = true) ∨ (q ≤ 32767 ∧ v = q ∧ ovf = false))))

/-- The reduced angles at which TAN faults, as R172 lists them. -/
abbrev TanPole (bd : Build) (r : Int) : Prop :=
  match bd with
  | .dec => (1566 ≤ r ∧ r ≤ 1576) ∨ (4708 ≤ r ∧ r ≤ 4717)
  | .binQ510 => (1605 ≤ r ∧ r ≤ 1612) ∨ (4822 ≤ r ∧ r ≤ 4829)
  | .binQ69 => (803 ≤ r ∧ r ≤ 805) ∨ (2411 ≤ r ∧ r ≤ 2414)

end Sys2Proof
end

