-- ==== Sys2Proof/WellFormed.lean ====
section
/-! DEFINITION. Which command words are legal (30_encoding.md R83), as a check of the four fields against the
opcode map's K and M columns (R84). The decoder does not use this file: that the two agree is a claim. -/

namespace Sys2Proof

/-- The four fields of a command word (R80). -/
structure CommandFields where
  op : BitVec 6
  k : BitVec 2
  m : BitVec 4
  z : BitVec 4
  deriving DecidableEq, Repr

/-- The fields of the word `d`: `OP = d[5:0]`, `K = d[7:6]`, `M = d[11:8]`, `Z = d[15:12]` (R80). -/
def CommandFields.ofWord (d : Word) : CommandFields :=
  { op := d.extractLsb' 0 6, k := d.extractLsb' 6 2, m := d.extractLsb' 8 4, z := d.extractLsb' 12 4 }

/-- One opcode with the field values its rows of R84 allow. -/
structure OpcodeRow where
  op : Nat
  kinds : List Nat
  modifiers : List Nat
  deriving DecidableEq, Repr

/-- A row that allows only `K = 0` and `M = 0`. -/
def OpcodeRow.fixed (op : Nat) : OpcodeRow := { op := op, kinds := [0], modifiers := [0] }

/-- A row that takes a kind: `K` in 0..2 and `M = 0`. -/
def OpcodeRow.kinded (op : Nat) : OpcodeRow := { op := op, kinds := [0, 1, 2], modifiers := [0] }

/-- Opcodes 0x00 to 0x09 of R84: system and scaling. -/
def opcodeRowsScaling : List OpcodeRow :=
  [.fixed 0x00, .fixed 0x01, { op := 0x02, kinds := [0], modifiers := List.range 16 }, .fixed 0x03,
   .kinded 0x04, { op := 0x05, kinds := [0, 1, 2], modifiers := [0, 1] }, .fixed 0x06, .fixed 0x07,
   .kinded 0x08, .kinded 0x09]

/-- Opcodes 0x10 to 0x1B of R84: arithmetic. -/
def opcodeRowsArith : List OpcodeRow :=
  [.kinded 0x10, .kinded 0x11, .kinded 0x12, .kinded 0x13, .fixed 0x14, .fixed 0x15, .fixed 0x16,
   .fixed 0x17, .fixed 0x18, .fixed 0x19, .fixed 0x1A, .fixed 0x1B]

/-- Opcodes 0x20 to 0x2F of R84: trigonometry and the transcendental layer. -/
def opcodeRowsFunctions : List OpcodeRow :=
  [.fixed 0x20, .fixed 0x21, .fixed 0x22, .fixed 0x23, .fixed 0x24, .fixed 0x25, .fixed 0x26, .fixed 0x27,
   .fixed 0x28, .fixed 0x29, .fixed 0x2A, .fixed 0x2B, .fixed 0x2C, .fixed 0x2D, .fixed 0x2E, .fixed 0x2F]

/-- Opcodes 0x30 to 0x34 of R84: angle conversion and rational utilities. -/
def opcodeRowsAngles : List OpcodeRow :=
  [.fixed 0x30, .fixed 0x31, .fixed 0x32, .fixed 0x33, { op := 0x34, kinds := [0], modifiers := [0, 1] }]

/-- The 43 opcodes of R84. -/
def opcodeRows : List OpcodeRow :=
  opcodeRowsScaling ++ (opcodeRowsArith ++ (opcodeRowsFunctions ++ opcodeRowsAngles))

/-- `d[15:12]` = 0 (R83). -/
def CommandFields.reservedZero (f : CommandFields) : Bool := f.z == 0

/-- `d[5:0]` is an opcode listed in R84 (R83). -/
def CommandFields.opcodeListed (f : CommandFields) : Bool := opcodeRows.any fun row => row.op == f.op.toNat

/-- `d[7:6]` is in the row's allowed set, never 3 (R83). -/
def CommandFields.kindAllowed (f : CommandFields) : Bool :=
  opcodeRows.all fun row => row.op != f.op.toNat || row.kinds.contains f.k.toNat

/-- `d[11:8]` is in the row's allowed set (R83). -/
def CommandFields.modifierAllowed (f : CommandFields) : Bool :=
  opcodeRows.all fun row => row.op != f.op.toNat || row.modifiers.contains f.m.toNat

/-- The four conditions of R83 together. -/
def CommandFields.wellFormed (f : CommandFields) : Bool :=
  f.reservedZero && f.opcodeListed && f.kindAllowed && f.modifierAllowed

/-- The command word `d` is legal (R83). -/
def legalWord (d : Word) : Bool := (CommandFields.ofWord d).wellFormed

end Sys2Proof
end

