-- ==== Sys2Proof/Certificates/Slice0/Obligations.lean ====
section
/-! DEFINITION. The statements about S16M. Each names the rules of spec/ it says. The rules' results are said as
relations (Safety.lean), so that a statement does not repeat the model's own functions. Every statement about a
state holds in all three builds, since the build is a field of the state. -/

open Sys2Proof Sys2Proof.Machine

/-! ## Encoding -/

/-- Decoding the encoding of a command gives the command back, with its kind or index (R80, R82, R84). -/
def Obligations.DecodeOfEncodeIsTheInstruction : Prop :=
  ∀ i : Instr, decode (encode i) = .ok i

/-- A legal word is the encoding of the command it decodes to: no two words share a meaning (R84). -/
def Obligations.EncodeOfDecodeIsTheWord : Prop :=
  ∀ (d : Word) (i : Instr), decode d = .ok i → encode i = d

/-- The decoder accepts exactly the words that meet the four conditions of R83. -/
def Obligations.DecodeAcceptsExactlyTheLegalWords : Prop :=
  ∀ d : Word, (∃ i, decode d = .ok i) ↔ legalWord d = true

/-- Of the 65536 words exactly 78 are legal: some list of 78 different words holds every legal word and no other
(R86). -/
def Obligations.LegalWordsNumberSeventyEight : Prop :=
  ∃ l : List Word, l.Nodup ∧ l.length = 78 ∧ ∀ d : Word, d ∈ l ↔ legalWord d = true

/-- Words written out from R84's rows, one of each family, and words R85 calls illegal. -/
def Obligations.SampleWordsDecodeAsTheTableSays : Prop :=
  decode 0b0000001100000010 = .ok (.const 3) ∧ decode 0b0000000110000101 = .ok (.joinn .rad) ∧
  decode 0b0000000001010010 = .ok (.div .deg) ∧ decode 0b0000000000100010 = .ok .sincos ∧
  decode 0b0000000000100111 = .ok .atan2 ∧ decode 0b0000000000101110 = .ok .rootov ∧
  decode 0b0000000100110100 = .ok .scaled ∧
  decode 0b0000000011010000 = .error .kindField ∧ decode 0b0001000000000010 = .error .reservedBits ∧
  decode 0b0000000000001010 = .error .unusedOpcode ∧ decode 0b0000000100010100 = .error .modifierField

/-! ## The port and the step -/

/-- When the host's next access writes a word that decodes to `i` to `CMD`, the step is `exec i` at the state
with that access taken off the host's queue (R90, R91; the queue is the model's own, log 2). -/
def Obligations.StepRunsTheDecodedCommand : Prop :=
  ∀ (s : State) (d : Word) (i : Instr) (rest : List Access),
    s.requests = .write 4 d :: rest → decode d = .ok i → step s = exec i { s with requests := rest }

/-- An illegal word written to `CMD` records `ILLCMD` and has no other effect (R85, with R252's first cause). -/
def Obligations.IllegalWordRecordsIllcmdOnly : Prop :=
  ∀ (s : State) (d : Word) (rest : List Access),
    s.requests = .write 4 d :: rest → legalWord d = false →
      step s = .next (afterFault { s with requests := rest } 3)

/-- A host read returns the addressed word and changes nothing of the unit (R61). -/
def Obligations.HostReadReturnsTheAddressedWord : Prop :=
  ∀ (s : State) (addr : BitVec 3) (rest : List Access), s.requests = .read addr :: rest →
    ∃ v : Word, step s = .next { s with requests := rest, replies := s.replies ++ [v] } ∧
      (addr = 0 → v = s.a) ∧ (addr = 1 → v = s.b) ∧ (addr = 2 → v = s.r) ∧ (addr = 3 → v = s.rh) ∧
      (addr = 4 ∨ addr = 7 → v = 0) ∧
      (addr = 5 → v.toNat = s.ovf.toNat + 2 * s.neg.toNat + 4 * s.pv.toNat + 16 * s.cause.toNat) ∧
      (addr = 6 → v = match s.build with | .dec => 0x01F0 | .binQ510 => 0x01E1 | .binQ69 => 0x01E3)

/-- A host write stores, executes a command, writes the two value flags, or does nothing, by address (R62). -/
def Obligations.HostWriteActsByAddress : Prop :=
  ∀ (s : State) (addr : BitVec 3) (d : Word) (rest : List Access), s.requests = .write addr d :: rest →
    (addr = 0 → step s = .next { s with requests := rest, a := d }) ∧
    (addr = 1 → step s = .next { s with requests := rest, b := d }) ∧
    (addr = 2 → step s = .next { s with requests := rest, r := d }) ∧
    (addr = 3 → step s = .next { s with requests := rest, rh := d }) ∧
    (addr = 4 → ∀ i, decode d = .ok i → step s = exec i { s with requests := rest }) ∧
    (addr = 4 → legalWord d = false → step s = .next (afterFault { s with requests := rest } 3)) ∧
    (addr = 5 → step s = .next { s with requests := rest, ovf := d.getLsbD 0, neg := d.getLsbD 1 }) ∧
    (addr = 6 ∨ addr = 7 → step s = .next { s with requests := rest })

/-- Reset, at reset time and whenever `rst` is asserted, leaves every register and flag 0; the build is what it
was, and the host's own queues are not the unit's (R51, R271). -/
def Obligations.ResetClearsEveryRegisterAndFlag : Prop :=
  (∀ (s : State) (rest : List Access), s.requests = .reset :: rest →
    step s = .next { a := 0, b := 0, r := 0, rh := 0, ovf := false, neg := false, pv := false, cause := 0,
                     build := s.build, requests := rest, replies := s.replies }) ∧
  (∀ bd : Build, State.resetOf bd =
    { a := 0, b := 0, r := 0, rh := 0, ovf := false, neg := false, pv := false, cause := 0,
      build := bd, requests := [], replies := [] }) ∧
  State.reset = State.resetOf State.reset.build

/-- Every step completes, takes exactly the next access, and leaves the build parameters alone; with no access
the unit holds its state; so no run from any state ever stops (R74, R90, R52, R264). -/
def Obligations.EveryAccessCompletes : Prop :=
  (∀ s : State, ∃ t : State, step s = .next t ∧ t.requests = s.requests.tail ∧ t.build = s.build) ∧
  (∀ s : State, s.requests = [] → step s = .next s) ∧
  ∀ s : State, RunsForever s

/-! ## Whole-machine rules -/

/-- Every step keeps the fault record sound: `CAUSE ≠ 0` exactly when `PV = 1`, codes 4 to 7 never produced (R41). -/
def Obligations.FaultRecordStaysSound : Prop :=
  ∀ s t : State, FaultRecordSound s → step s = .next t → FaultRecordSound t

/-- The fault record is sound after reset (R41, R51). -/
def Obligations.FaultRecordSoundAfterReset : Prop :=
  FaultRecordSound State.reset ∧ ∀ bd : Build, FaultRecordSound (State.resetOf bd)

/-- `PV` is sticky: only CLRF and reset clear it; and `CAUSE` changes only by a first fault, by CLRF or by reset
(R40, R41). -/
def Obligations.FaultRecordIsClearedOnlyByClrfOrReset : Prop :=
  ∀ s t : State, step s = .next t →
    ((s.pv = true ∧ t.pv = false) ∨ (t.cause ≠ s.cause ∧ ¬ (s.pv = false ∧ t.pv = true))) →
      (∃ d rest, s.requests = .write 4 d :: rest ∧ decode d = .ok .clrf) ∨
      (∃ rest, s.requests = .reset :: rest)

/-- FRAME of all 45 commands: each goes on, never writes `A` or `B`, the build or the host's queues, and writes
`R`, `RH`, `OVF`, `NEG` only where its row of R84 says so; a command with no faults leaves `PV` and `CAUSE` alone,
CLRF apart (R20, R33, R84). -/
def Obligations.CommandsWriteOnlyTheirTableRow : Prop :=
  ∀ (i : Instr) (s : State), ∃ t : State, exec i s = .next t ∧
    t.a = s.a ∧ t.b = s.b ∧ t.build = s.build ∧ t.requests = s.requests ∧ t.replies = s.replies ∧
    ((effects i).writesR = false → t.r = s.r) ∧
    ((effects i).writesRH = false → t.rh = s.rh) ∧
    ((effects i).writesOvf = false → t.ovf = s.ovf) ∧
    ((effects i).writesNeg = false → t.neg = s.neg) ∧
    ((effects i).faults = [] → i ≠ .clrf → t.pv = s.pv ∧ t.cause = s.cause)

/-- A command other than CLRF faults or not whatever `PV` holds: the question is decided by the run `u` from the same
state with `PV` = 0. If that run sets `PV`, its `CAUSE` is a cause of the command's own row of R251, and the run `t` from
the state itself, first fault or repeated one, changes nothing but the fault record, by that cause (R252): `R`, `RH`,
`OVF`, `NEG` and all else stay. If it does not, the command leaves `PV` and `CAUSE` alone (R84, R251, R252, R254). -/
def Obligations.FaultingCommandsWriteOnlyTheFaultRecord : Prop :=
  ∀ (i : Instr) (s : State), i ≠ .clrf →
    ∃ t u : State, exec i s = .next t ∧ exec i { s with pv := false } = .next u ∧
      ((u.pv = true ∧ ∃ c ∈ (effects i).faults, u.cause = c.code ∧ t = afterFault s c.code) ∨
       (u.pv = false ∧ t.pv = s.pv ∧ t.cause = s.cause))

/-- What a command writes depends only on the registers its row of R84 lists as read and on the build: two states
that agree on those either both fault, with one cause, or get the same written values. In particular no command
reads a flag, `PV` included (R20, R37, R40, R84). -/
def Obligations.CommandsDependOnlyOnTheRegistersTheyRead : Prop :=
  ∀ (i : Instr) (s s' : State), s.build = s'.build →
    ((effects i).readsA = true → s.a = s'.a) → ((effects i).readsB = true → s.b = s'.b) →
    ((effects i).readsR = true → s.r = s'.r) →
    (∃ c : FaultCause, exec i s = .next (afterFault s c.code) ∧ exec i s' = .next (afterFault s' c.code)) ∨
    ∃ t t' : State, exec i s = .next t ∧ exec i s' = .next t' ∧
      ((effects i).writesR = true → t.r = t'.r) ∧ ((effects i).writesRH = true → t.rh = t'.rh) ∧
      ((effects i).writesOvf = true → t.ovf = t'.ovf) ∧ ((effects i).writesNeg = true → t.neg = t'.neg)

/-! ## System commands -/

/-- NOP changes nothing; CLRF clears the four flags and nothing else (R100, R101). -/
def Obligations.NopChangesNothingAndClrfClearsTheFlags : Prop :=
  ∀ s : State, exec .nop s = .next s ∧
    exec .clrf s = .next { s with ovf := false, neg := false, pv := false, cause := 0 }

/-- CONST puts the 32-bit pattern of the table's entry into `{RH, R}` (R102). -/
def Obligations.ConstReadsTheLibraryConstant : Prop :=
  ∀ (m : BitVec 4) (s : State), ∃ lo hi : Word,
    exec (.const m) s = .next { s with r := lo, rh := hi } ∧
    (hi ++ lo).toInt = (printedConstants s.build).getD m.toNat 0

/-- The derived constants are the real constants times their scale, rounded to nearest (R48). -/
def Obligations.DerivedConstantsAreTheRoundedReals : Prop :=
  ∀ bd : Build,
    |(cPi bd : ℝ) - Real.pi * (scale bd .rad : ℝ)| < 1 / 2 ∧
    |(cTwoPi bd : ℝ) - 2 * Real.pi * (scale bd .rad : ℝ)| < 1 / 2 ∧
    |(cHalfPi bd : ℝ) - Real.pi / 2 * (scale bd .rad : ℝ)| < 1 / 2 ∧
    |(cThreeHalfPi bd : ℝ) - 3 * Real.pi / 2 * (scale bd .rad : ℝ)| < 1 / 2 ∧
    |(cE bd : ℝ) - Real.exp 1 * (scale bd .num : ℝ)| < 1 / 2 ∧
    |(cLn10 bd : ℝ) - Real.log 10 * (scale bd .num : ℝ)| < 1 / 2 ∧
    |(cDegPerRad bd : ℝ) - 180 / Real.pi * (scale bd .deg : ℝ)| < 1 / 2 ∧
    |(cRadPerDeg bd : ℝ) - Real.pi / 180 * (scale bd .rad : ℝ)| < 1 / 2

/-- CTAB puts the table entry into `{RH, R}` for an index inside the table and faults `DOMAIN` outside (R103). -/
def Obligations.CtabReadsATableEntryOrFaults : Prop :=
  ∀ s : State,
    (0 ≤ s.a.toInt ∧ s.a.toInt < (printedTable s.build).length →
      ∃ lo hi : Word, exec .ctab s = .next { s with r := lo, rh := hi } ∧
        (hi ++ lo).toInt = (printedTable s.build).getD s.a.toInt.toNat 0) ∧
    (s.a.toInt < 0 ∨ (printedTable s.build).length ≤ s.a.toInt → exec .ctab s = .next (afterFault s 2))

/-- The CORDIC table: `CORDIC_N` entries, each the arctangent of `2^-i` at the internal scale rounded to nearest,
positive and strictly decreasing (R161, R47). -/
def Obligations.CordicTableIsTheRoundedArctangents : Prop :=
  ∀ bd : Build, (cordicTable bd).length = cordicN bd ∧
    (∀ i < cordicN bd,
      |((cordicTable bd).getD i 0 : ℝ) - Real.arctan (1 / 2 ^ i) * (scale bd .rad * 2 ^ ash bd : ℝ)| < 1 / 2) ∧
    (cordicTable bd).Pairwise (· > ·) ∧ ∀ t ∈ cordicTable bd, 0 < t

/-! ## Scaling -/

/-- SPLIT: whole part with the operand's sign, fraction `0 <= f < S`, sign in `NEG`; the operand is recovered
exactly from the three (R110). -/
def Obligations.SplitGivesWholeFractionAndSign : Prop :=
  ∀ (k : Kind) (s : State), ∃ w f : Word,
    exec (.split k) s = .next { s with r := w, rh := f, neg := decide (s.a.toInt < 0) } ∧
    (f.toNat : Int) < scale s.build k ∧
    s.a.toInt = (if s.a.toInt < 0 then -1 else 1) * (|w.toInt| * scale s.build k + f.toNat) ∧
    (0 ≤ s.a.toInt → 0 ≤ w.toInt) ∧ (s.a.toInt < 0 → w.toInt ≤ 0)

/-- JOIN and JOINN form `±(abs(a)*S + b)`, wrap it and report the overflow; a fraction outside `0 .. S - 1` faults
`DOMAIN` (R111). -/
def Obligations.JoinAndJoinnEncode : Prop :=
  ∀ (k : Kind) (s : State),
    (0 ≤ s.b.toInt ∧ s.b.toInt < scale s.build k →
      ∃ v w : Word, ∃ x y : Int,
        x = (if s.a.toInt < 0 then -1 else 1) * (|s.a.toInt| * scale s.build k + s.b.toInt) ∧
        y = -(|s.a.toInt| * scale s.build k + s.b.toInt) ∧ IsPattern v x ∧ IsPattern w y ∧
        exec (.join k) s = .next { s with r := v, ovf := decide (OutOfRange x) } ∧
        exec (.joinn k) s = .next { s with r := w, ovf := decide (OutOfRange y) }) ∧
    (s.b.toInt < 0 ∨ scale s.build k ≤ s.b.toInt →
      exec (.join k) s = .next (afterFault s 2) ∧ exec (.joinn k) s = .next (afterFault s 2))

/-- TOBIN is the floor of `(128a + 50)/100` and overflows exactly outside -25600 .. 25599; TODEC is the floor of
`(100a + 64)/128`, always fits and writes no flag (R112, R113). -/
def Obligations.TobinAndTodecRoundHalfUp : Prop :=
  ∀ s : State,
    (∃ (v : Int) (w : Word), 100 * v ≤ 128 * s.a.toInt + 50 ∧ 128 * s.a.toInt + 50 < 100 * v + 100 ∧
      IsPattern w v ∧ (OutOfRange v ↔ s.a.toInt < -25600 ∨ 25599 < s.a.toInt) ∧
      exec .tobin s = .next { s with r := w, ovf := decide (OutOfRange v) }) ∧
    ∃ w : Word, 128 * w.toInt ≤ 100 * s.a.toInt + 64 ∧ 100 * s.a.toInt + 64 < 128 * w.toInt + 128 ∧
      exec .todec s = .next { s with r := w }

/-- The round trips between the two resolutions (R116). -/
def Obligations.ResolutionRoundTrips : Prop :=
  ∀ s : State,
    (-25600 ≤ s.a.toInt ∧ s.a.toInt ≤ 25599 → ∃ t u : State, exec .tobin s = .next t ∧
      exec .todec { t with a := t.r } = .next u ∧ u.r = s.a) ∧
    ∃ t u : State, exec .todec s = .next t ∧ exec .tobin { t with a := t.r } = .next u ∧
      u.ovf = false ∧ |u.r.toInt - s.a.toInt| ≤ 1

/-- PRESC puts `a * S` into `{RH, R}`; FIXSC divides the pair `{B, A}` by the scale, rounds to nearest with ties
away from zero, wraps and reports the overflow (R114, R115). -/
def Obligations.PrescWidensAndFixscNarrows : Prop :=
  ∀ (k : Kind) (s : State),
    (∃ lo hi : Word, exec (.presc k) s = .next { s with r := lo, rh := hi } ∧
      (hi ++ lo).toInt = s.a.toInt * scale s.build k) ∧
    ∃ (q : Int) (w : Word), IsNearest (s.b ++ s.a).toInt (scale s.build k) q ∧ IsPattern w q ∧
      exec (.fixsc k) s = .next { s with r := w, ovf := decide (OutOfRange q) }

/-- JOIN/JOINN undo SPLIT, and FIXSC undoes PRESC, for every value and kind and without overflow (R111 (4),
R115 (2)). -/
def Obligations.EncodersUndoTheDecoders : Prop :=
  ∀ (k : Kind) (s : State),
    (∃ t u : State, exec (.split k) s = .next t ∧
      exec (if t.neg = true then .joinn k else .join k) { t with a := t.r, b := t.rh } = .next u ∧
      u.r = s.a ∧ u.ovf = false) ∧
    ∃ t u : State, exec (.presc k) s = .next t ∧ exec (.fixsc k) { t with a := t.r, b := t.rh } = .next u ∧
      u.r = s.a ∧ u.ovf = false

/-! ## Arithmetic -/

/-- MUL rounds the exact product at the scale, ties away from zero, and wraps; nothing else changes (R131). -/
def Obligations.MulRoundsTheExactProduct : Prop :=
  ∀ (k : Kind) (s : State), ∃ (q : Int) (w : Word),
    IsNearest (s.a.toInt * s.b.toInt) (scale s.build k) q ∧ IsPattern w q ∧
    exec (.mul k) s = .next { s with r := w }

/-- MULOV answers whether `R` is the exact rounded product; after the MUL it checks, whether that product left
the 16-bit range (R132). -/
def Obligations.MulovReportsExactlyTheOverflow : Prop :=
  ∀ (k : Kind) (s : State), ∃ (q : Int) (t : State),
    IsNearest (s.a.toInt * s.b.toInt) (scale s.build k) q ∧
    exec (.mulov k) s = .next { s with ovf := decide (q ≠ s.r.toInt) } ∧
    exec (.mul k) s = .next t ∧ exec (.mulov k) t = .next { t with ovf := decide (OutOfRange q) }

/-- DIV rounds `a * S / b`, ties away from zero, and wraps; it faults `DIVZERO` for `b = 0` (R133). -/
def Obligations.DivRoundsTheQuotientOrFaults : Prop :=
  ∀ (k : Kind) (s : State),
    (s.b.toInt ≠ 0 → ∃ (q : Int) (w : Word), IsNearest (s.a.toInt * scale s.build k) s.b.toInt q ∧
      IsPattern w q ∧ exec (.div k) s = .next { s with r := w }) ∧
    (s.b.toInt = 0 → exec (.div k) s = .next (afterFault s 1))

/-- DIVOV answers whether `R` is the exact rounded quotient, never faults, and answers 1 for `b = 0` (R134). -/
def Obligations.DivovJudgesTheQuotient : Prop :=
  ∀ (k : Kind) (s : State),
    (s.b.toInt ≠ 0 → ∃ (q : Int) (t : State), IsNearest (s.a.toInt * scale s.build k) s.b.toInt q ∧
      exec (.divov k) s = .next { s with ovf := decide (q ≠ s.r.toInt) } ∧
      exec (.div k) s = .next t ∧ exec (.divov k) t = .next { t with ovf := decide (OutOfRange q) }) ∧
    (s.b.toInt = 0 → exec (.divov k) s = .next { s with ovf := true })

/-- ADD and SUB wrap the exact sum and difference and write no flag (R135, R137). -/
def Obligations.AddAndSubWrap : Prop :=
  ∀ s : State, ∃ v w : Word,
    IsPattern v (s.a.toInt + s.b.toInt) ∧ exec .add s = .next { s with r := v } ∧
    IsPattern w (s.a.toInt - s.b.toInt) ∧ exec .sub s = .next { s with r := w }

/-- ADDOV and SUBOV answer whether `R` is the exact sum or difference; after ADD or SUB, whether it left the
range (R136, R138). -/
def Obligations.AddovAndSubovReportExactlyTheOverflow : Prop :=
  ∀ s : State, ∃ t u : State,
    exec .addov s = .next { s with ovf := decide (s.a.toInt + s.b.toInt ≠ s.r.toInt) } ∧
    exec .subov s = .next { s with ovf := decide (s.a.toInt - s.b.toInt ≠ s.r.toInt) } ∧
    exec .add s = .next t ∧ exec .addov t = .next { t with ovf := decide (OutOfRange (s.a.toInt + s.b.toInt)) } ∧
    exec .sub s = .next u ∧ exec .subov u = .next { u with ovf := decide (OutOfRange (s.a.toInt - s.b.toInt)) }

/-- ADDS and SUBS clamp to -32768 .. 32767 and set `OVF` exactly when they clamp (R139, R140). -/
def Obligations.AddsAndSubsSaturate : Prop :=
  ∀ s : State, ∃ v w : Word,
    v.toInt = max (-32768) (min 32767 (s.a.toInt + s.b.toInt)) ∧
    exec .adds s = .next { s with r := v, ovf := decide (OutOfRange (s.a.toInt + s.b.toInt)) } ∧
    w.toInt = max (-32768) (min 32767 (s.a.toInt - s.b.toInt)) ∧
    exec .subs s = .next { s with r := w, ovf := decide (OutOfRange (s.a.toInt - s.b.toInt)) }

/-- POW multiplies `n` times, narrowing at each step, and its flag records any step that overflowed; `n < 0` faults
`DOMAIN` (R141). -/
def Obligations.PowIsRepeatedMultiplication : Prop :=
  ∀ s : State,
    (0 ≤ s.b.toInt → ∃ (w : Word) (ov : Bool), IsPowerRun s.build s.a.toInt s.b.toInt.toNat w.toInt ov ∧
      exec .pow s = .next { s with r := w, ovf := ov }) ∧
    (s.b.toInt < 0 → exec .pow s = .next (afterFault s 2))

/-- POWOV answers 1 when any step of the power overflowed or `R` is not the power, and for `n < 0`; after POW it
writes the flag POW wrote (R142). -/
def Obligations.PowovJudgesThePower : Prop :=
  ∀ s : State,
    (0 ≤ s.b.toInt → ∃ (v : Int) (ov : Bool) (t : State),
      IsPowerRun s.build s.a.toInt s.b.toInt.toNat v ov ∧
      exec .powov s = .next { s with ovf := ov || decide (v ≠ s.r.toInt) } ∧
      exec .pow s = .next t ∧ exec .powov t = .next t) ∧
    (s.b.toInt < 0 → exec .powov s = .next { s with ovf := true })

/-- Corner cases of POW and FACT: `a^0` is 1.0 and `a^1` is `a` for every `a`; `1.0^n` is 1.0 and `(-1.0)^n` alternates
for every `n`; `n!` is exact and unflagged up to 5 and flagged from 6 on (R141 (1) to (3), R216). -/
def Obligations.PowerAndFactorialCorners : Prop :=
  ∀ s : State,
    (s.b.toInt = 0 → ∃ w : Word, w.toInt = scale s.build .num ∧ exec .pow s = .next { s with r := w, ovf := false }) ∧
    (s.b.toInt = 1 → exec .pow s = .next { s with r := s.a, ovf := false }) ∧
    (0 ≤ s.b.toInt ∧ s.a.toInt = scale s.build .num → exec .pow s = .next { s with r := s.a, ovf := false }) ∧
    (0 ≤ s.b.toInt ∧ s.a.toInt = -scale s.build .num → ∃ w : Word,
      w.toInt = (if s.b.toInt % 2 = 0 then 1 else -1) * scale s.build .num ∧
      exec .pow s = .next { s with r := w, ovf := false }) ∧
    (0 ≤ s.a.toInt ∧ s.a.toInt ≤ 5 → ∃ w : Word,
      w.toInt = scale s.build .num * (s.a.toInt.toNat.factorial : Int) ∧
      exec .fact s = .next { s with r := w, ovf := false }) ∧
    (6 ≤ s.a.toInt → ∃ w : Word, exec .fact s = .next { s with r := w, ovf := true })

/-! ## CORDIC rotation -/

/-- SIN, COS and SINCOS unwind the angle (R164), run the rotation of R167, correct the length and apply the quadrant's
signs (R168); SINCOS's two results are those of SIN and COS (R169, R170, R171). Two clauses are the model's choice: that a
boundary angle belongs to the lower quadrant (log 9: R164's comparisons, against the wording of D21 and N17), and that
the functions are the spec's integer references (log 4). -/
def Obligations.SinCosAndSincosRunTheRotation : Prop :=
  ∀ s : State, ∃ (theta ssin scos x y c sn : Int) (ws wc : Word),
    IsUnwound s.build s.a.toInt theta ssin scos ∧ IsRotation s.build theta x y ∧
    IsNearest (x * cordicK s.build) (cordicLC s.build) c ∧
    IsNearest (y * cordicK s.build) (cordicLC s.build) sn ∧
    IsPattern ws (ssin * sn) ∧ IsPattern wc (scos * c) ∧
    exec .sin s = .next { s with r := ws } ∧ exec .cos s = .next { s with r := wc } ∧
    exec .sincos s = .next { s with r := ws, rh := wc }

/-- TAN divides sine by cosine at scale `S_NUM`, never wraps, and faults `DIVZERO` exactly for the reduced angles
R172 lists, where the cosine computes to 0. -/
def Obligations.TanDividesSineByCosineOrFaults : Prop :=
  ∀ s : State, ∃ sn cs : Word, exec .sincos s = .next { s with r := sn, rh := cs } ∧
    (cs.toInt = 0 ↔ TanPole s.build (s.a.toInt % cTwoPi s.build)) ∧
    (¬ TanPole s.build (s.a.toInt % cTwoPi s.build) →
      ∃ w : Word, IsNearest (sn.toInt * scale s.build .num) cs.toInt w.toInt ∧
        exec .tan s = .next { s with r := w }) ∧
    (TanPole s.build (s.a.toInt % cTwoPi s.build) → exec .tan s = .next (afterFault s 1))

/-- Sine and cosine of every angle lie in `-S_NUM .. S_NUM` (R168). -/
def Obligations.SineAndCosineStayWithinOne : Prop :=
  ∀ s : State, ∃ sn cs : Word, exec .sincos s = .next { s with r := sn, rh := cs } ∧
    |sn.toInt| ≤ scale s.build .num ∧ |cs.toInt| ≤ scale s.build .num

/-- Adding the stored full circle changes neither sine nor cosine, wherever the sum is a 16-bit value; and at 0, `HALF_PI`,
`PI` and `THREE_HALF_PI` both values are exact: 0 and 1.0, 1.0 and 0, 0 and -1.0, -1.0 and 0 (R165, R169, R170;
95_test_vectors.md L1.3). Of the spec's integer references (log 4). -/
def Obligations.SineAndCosineArePeriodicAndExactAtQuarterTurns : Prop :=
  ∀ s : State,
    (∀ s' : State, s'.build = s.build → s'.a.toInt = s.a.toInt + cTwoPi s.build → ∃ sn cs : Word,
      exec .sincos s = .next { s with r := sn, rh := cs } ∧ exec .sincos s' = .next { s' with r := sn, rh := cs }) ∧
    ∃ sn cs : Word, exec .sincos s = .next { s with r := sn, rh := cs } ∧
      (s.a.toInt = 0 → sn.toInt = 0 ∧ cs.toInt = scale s.build .num) ∧
      (s.a.toInt = cHalfPi s.build → sn.toInt = scale s.build .num ∧ cs.toInt = 0) ∧
      (s.a.toInt = cPi s.build → sn.toInt = 0 ∧ cs.toInt = -scale s.build .num) ∧
      (s.a.toInt = cThreeHalfPi s.build → sn.toInt = -scale s.build .num ∧ cs.toInt = 0)

/-! ## Inverse CORDIC -/

/-- ATAN runs the vectoring kernel on `(1.0, |a|)` with 12 extra bits and gives the angle `a`'s sign (R185). -/
def Obligations.AtanRunsTheVectoring : Prop :=
  ∀ s : State, ∃ (angle : Int) (w : Word),
    IsVectoring s.build (scale s.build .num * 4096) (|s.a.toInt| * 4096) angle ∧
    w.toInt = (if s.a.toInt < 0 then -angle else angle) ∧ exec .atan s = .next { s with r := w }

/-- ASIN and ACOS run the vectoring kernel on the triangle with hypotenuse 1.0; outside [-1.0, 1.0] both fault
`DOMAIN` (R183, R184). -/
def Obligations.AsinAndAcosSolveTheTriangle : Prop :=
  ∀ s : State,
    (|s.a.toInt| ≤ scale s.build .num → ∃ (c t u : Int) (v w : Word), IsCofactor s.build s.a.toInt c ∧
      IsVectoring s.build (c * 16) (|s.a.toInt| * 4096) t ∧
      v.toInt = (if s.a.toInt < 0 then -t else t) ∧ exec .asin s = .next { s with r := v } ∧
      (0 < s.a.toInt → IsVectoring s.build (s.a.toInt * 4096) (c * 16) u ∧ w.toInt = u) ∧
      (s.a.toInt ≤ 0 → IsVectoring s.build (c * 16) (-s.a.toInt * 4096) u ∧ w.toInt = cHalfPi s.build + u) ∧
      exec .acos s = .next { s with r := w }) ∧
    (scale s.build .num < |s.a.toInt| →
      exec .asin s = .next (afterFault s 2) ∧ exec .acos s = .next (afterFault s 2))

/-- Ranges and end points: ASIN in `-HALF_PI .. HALF_PI`, exactly `±HALF_PI` at ±1.0; ACOS in `0 .. PI`, 0 at 1.0 and
`HALF_PI` at 0 (R181, R183, R184). -/
def Obligations.AsinAndAcosRangesAndEndPoints : Prop :=
  ∀ s : State, |s.a.toInt| ≤ scale s.build .num → ∃ v w : Word,
    exec .asin s = .next { s with r := v } ∧ exec .acos s = .next { s with r := w } ∧
    |v.toInt| ≤ cHalfPi s.build ∧ 0 ≤ w.toInt ∧ w.toInt ≤ cPi s.build ∧
    (s.a.toInt = scale s.build .num → v.toInt = cHalfPi s.build ∧ w.toInt = 0) ∧
    (s.a.toInt = -scale s.build .num → v.toInt = -cHalfPi s.build ∧ w.toInt = 2 * cHalfPi s.build) ∧
    (s.a.toInt = 0 → v.toInt = 0 ∧ w.toInt = cHalfPi s.build)

/-- ATAN and ASIN are exactly odd, and ATAN(-32768) is the negation of ATAN(32767) (R181, R183, R185). -/
def Obligations.AtanAndAsinAreOdd : Prop :=
  ∀ s s' : State, s'.build = s.build →
    (s'.a.toInt = -s.a.toInt ∨ (s.a.toInt = 32767 ∧ s'.a.toInt = -32768) → ∃ v w : Word, w.toInt = -v.toInt ∧
      exec .atan s = .next { s with r := v } ∧ exec .atan s' = .next { s' with r := w }) ∧
    (s'.a.toInt = -s.a.toInt ∧ |s.a.toInt| ≤ scale s.build .num → ∃ v w : Word, w.toInt = -v.toInt ∧
      exec .asin s = .next { s with r := v } ∧ exec .asin s' = .next { s' with r := w })

/-- ATAN2 measures from the nearer axis in each of four sign regions and faults `DOMAIN` at the origin; `A` is y and `B`
is x (R186). -/
def Obligations.Atan2ResolvesTheFullCircleOrFaults : Prop :=
  ∀ s : State,
    (¬ (s.a.toInt = 0 ∧ s.b.toInt = 0) → ∃ (t : Int) (w : Word),
      (0 ≤ s.a.toInt ∧ 0 < s.b.toInt →
        IsVectoring s.build (s.b.toInt * 4096) (s.a.toInt * 4096) t ∧ w.toInt = t) ∧
      (0 < s.a.toInt ∧ s.b.toInt ≤ 0 ∨ s.a.toInt = 0 ∧ s.b.toInt < 0 →
        IsVectoring s.build (s.a.toInt * 4096) (-s.b.toInt * 4096) t ∧ w.toInt = cHalfPi s.build + t) ∧
      (s.a.toInt < 0 ∧ s.b.toInt < 0 →
        IsVectoring s.build (-s.b.toInt * 4096) (-s.a.toInt * 4096) t ∧ w.toInt = t - cPi s.build) ∧
      (s.a.toInt < 0 ∧ 0 ≤ s.b.toInt →
        IsVectoring s.build (-s.a.toInt * 4096) (s.b.toInt * 4096) t ∧ w.toInt = t - cHalfPi s.build) ∧
      exec .atan2 s = .next { s with r := w }) ∧
    (s.a.toInt = 0 ∧ s.b.toInt = 0 → exec .atan2 s = .next (afterFault s 2))

/-! ## Transcendental layer -/

/-- LN writes the sentinel `-99 * S_NUM` for `a <= 0` and otherwise the series logarithm of R201 rounded to `S_NUM`; no
flag and no fault (R202). That the series has six terms is the model's choice (log 10: R201's pseudocode, against D28's
five odd terms), and so is taking the spec's integer reference at all (log 4). -/
def Obligations.LnIsTheSentinelOrTheSeries : Prop :=
  ∀ s : State,
    (s.a.toInt ≤ 0 → ∃ w : Word, w.toInt = -99 * scale s.build .num ∧ exec .ln s = .next { s with r := w }) ∧
    (0 < s.a.toInt → ∃ (l : Int) (w : Word), IsLn16 s.build s.a.toInt l ∧
      IsNearest (l * scale s.build .num) 65536 w.toInt ∧ exec .ln s = .next { s with r := w })

/-- For a positive argument LN stays in the range R200 names, so it never equals the sentinel; LN(1.0) is 0 (R200,
R202). -/
def Obligations.LnOfPositiveNeverEqualsTheSentinel : Prop :=
  ∀ s : State, 0 < s.a.toInt → ∃ w : Word, exec .ln s = .next { s with r := w } ∧
    w.toInt ≠ -99 * scale s.build .num ∧
    (s.build = .dec → -461 ≤ w.toInt ∧ w.toInt ≤ 579) ∧ (s.build ≠ .dec → -621 ≤ w.toInt ∧ w.toInt ≤ 710) ∧
    (w.toInt = 0 ↔ s.a.toInt = scale s.build .num)

/-- LOGB and LOG10 divide the logarithms LN writes, at scale `S_NUM`; the sentinel propagates before the zero test; base
1.0 faults `DIVZERO`; LOG10 cannot overflow and writes no flag (R203, R204). `la` and `lb` are what LN writes for `A`
and `B`. -/
def Obligations.LogbAndLog10DivideTheLogarithms : Prop :=
  ∀ s : State, ∃ la lb : Word,
    exec .ln s = .next { s with r := la } ∧
    exec .ln { s with a := s.b } = .next { s with a := s.b, r := lb } ∧
    (s.a.toInt ≤ 0 ∨ s.b.toInt ≤ 0 → ∃ w : Word, w.toInt = -99 * scale s.build .num ∧
      exec .logb s = .next { s with r := w, ovf := false }) ∧
    (s.a.toInt = scale s.build .num ∧ 0 < s.b.toInt → exec .logb s = .next (afterFault s 1)) ∧
    (0 < s.a.toInt ∧ s.a.toInt ≠ scale s.build .num ∧ 0 < s.b.toInt → ∃ (q : Int) (w : Word),
      IsNearest (lb.toInt * scale s.build .num) la.toInt q ∧ IsPattern w q ∧
      exec .logb s = .next { s with r := w, ovf := decide (OutOfRange q) }) ∧
    (s.a.toInt ≤ 0 → ∃ w : Word, w.toInt = -99 * scale s.build .num ∧
      exec .log10 s = .next { s with r := w }) ∧
    (0 < s.a.toInt → ∃ w : Word, IsNearest (la.toInt * scale s.build .num) (cLn10 s.build) w.toInt ∧
      exec .log10 s = .next { s with r := w })

/-- EXP writes the value and the flag of the reference exponential (R209 with R208). -/
def Obligations.ExpIsTheReferenceExponential : Prop :=
  ∀ s : State, ∃ (w : Word) (ov : Bool), IsExpRef s.build s.a.toInt w.toInt ov ∧
    exec .exp s = .next { s with r := w, ovf := ov }

/-- EXP is never negative, saturates with the flag exactly from 580 (decimal) or 710 (binary) on, is 0 exactly up to
-530 or -710, and gives 1.0 at 0 and `E` at 1.0 (R207, R208). -/
def Obligations.ExpSaturatesAndUnderflowsWhereStated : Prop :=
  ∀ s : State, ∃ w : Word,
    exec .exp s = .next { s with r := w, ovf := decide ((if s.build = .dec then 580 else 710) ≤ s.a.toInt) } ∧
    0 ≤ w.toInt ∧ ((if s.build = .dec then 580 else 710) ≤ s.a.toInt → w.toInt = 32767) ∧
    (w.toInt = 0 ↔ s.a.toInt ≤ (if s.build = .dec then -530 else -710)) ∧
    (s.a.toInt = 0 → w.toInt = scale s.build .num) ∧ (s.a.toInt = scale s.build .num → w.toInt = cE s.build)

/-- ROOT writes the one `r` in 0 .. 32767 for which `|r^n - a * S_NUM^(n-1)|` is least, in exact integers, and faults
`DOMAIN` for `a < 0` or `n < 1` (R213 with R212). -/
def Obligations.RootIsTheUniqueMinimiserOrFaults : Prop :=
  ∀ s : State,
    (0 ≤ s.a.toInt ∧ 1 ≤ s.b.toInt → ∃ w : Word, 0 ≤ w.toInt ∧
      (∀ r : Int, 0 ≤ r → r ≤ 32767 → r ≠ w.toInt →
        |w.toInt ^ s.b.toInt.toNat - s.a.toInt * scale s.build .num ^ (s.b.toInt.toNat - 1)| <
        |r ^ s.b.toInt.toNat - s.a.toInt * scale s.build .num ^ (s.b.toInt.toNat - 1)|) ∧
      exec .root s = .next { s with r := w }) ∧
    (s.a.toInt < 0 ∨ s.b.toInt < 1 → exec .root s = .next (afterFault s 2))

/-- SQRT is ROOT with `n = 2` whatever `B` holds: the unique minimiser of `|r² - a * S_NUM|`; `a < 0` faults `DOMAIN`;
ROOTOV answers whether `R` is the root, never faults, and answers 1 for invalid operands (R214, R215). -/
def Obligations.SqrtIsTheSecondRootAndRootovJudges : Prop :=
  ∀ s : State,
    (0 ≤ s.a.toInt → ∃ w : Word, 0 ≤ w.toInt ∧
      (∀ r : Int, 0 ≤ r → r ≤ 32767 → r ≠ w.toInt →
        |w.toInt ^ 2 - s.a.toInt * scale s.build .num| < |r ^ 2 - s.a.toInt * scale s.build .num|) ∧
      exec .sqrt s = .next { s with r := w } ∧
      exec .root { s with b := 2 } = .next { s with b := 2, r := w }) ∧
    (s.a.toInt < 0 → exec .sqrt s = .next (afterFault s 2)) ∧
    (0 ≤ s.a.toInt ∧ 1 ≤ s.b.toInt → ∃ w : Word, exec .root s = .next { s with r := w } ∧
      exec .rootov s = .next { s with ovf := decide (w ≠ s.r) }) ∧
    (s.a.toInt < 0 ∨ s.b.toInt < 1 → exec .rootov s = .next { s with ovf := true })

/-- FACT multiplies 1.0 by 1, 2, … `n`, narrowing at each step, with a flag for any step that overflowed; `n < 0` faults
`DOMAIN` (R216). -/
def Obligations.FactIsTheRunningProductOrFaults : Prop :=
  ∀ s : State,
    (0 ≤ s.a.toInt → ∃ (w : Word) (ov : Bool), IsFactorialRun s.build s.a.toInt.toNat w.toInt ov ∧
      exec .fact s = .next { s with r := w, ovf := ov }) ∧
    (s.a.toInt < 0 → exec .fact s = .next (afterFault s 2))

/-! ## Angle conversion and rational utilities -/

/-- D2R and R2D round the exact ratio with the stored full circles and overflow exactly where the rules say (R230,
R231). -/
def Obligations.AngleConversionsRoundTheExactRatio : Prop :=
  ∀ s : State,
    (∃ (q : Int) (w : Word), IsNearest (s.a.toInt * cTwoPi s.build) (360 * scale s.build .deg) q ∧ IsPattern w q ∧
      exec .d2r s = .next { s with r := w, ovf := decide (OutOfRange q) } ∧
      (OutOfRange q ↔
        (s.build = .dec ∧ (18775 ≤ s.a.toInt ∨ s.a.toInt ≤ -18776)) ∨
        (s.build = .binQ510 ∧ (29335 ≤ s.a.toInt ∨ s.a.toInt ≤ -29336)))) ∧
    ∃ (q : Int) (w : Word), IsNearest (s.a.toInt * 360 * scale s.build .deg) (cTwoPi s.build) q ∧ IsPattern w q ∧
      exec .r2d s = .next { s with r := w, ovf := decide (OutOfRange q) } ∧
      (OutOfRange q ↔ s.build = .binQ69 ∧ (18301 ≤ s.a.toInt ∨ s.a.toInt ≤ -18302))

/-- Degrees to radians and back, for every stored angle in [0, 360): exact in decimal and Q5.10, within 1 in Q6.9, with no
overflow at either step (R232). -/
def Obligations.DegreeRoundTripWithinTolerance : Prop :=
  ∀ s : State, 0 ≤ s.a.toInt → s.a.toInt < 360 * scale s.build .deg →
    ∃ t u : State, exec .d2r s = .next t ∧ exec .r2d { t with a := t.r } = .next u ∧
      t.ovf = false ∧ u.ovf = false ∧ |u.r.toInt - s.a.toInt| ≤ 1 ∧ (s.build ≠ .binQ69 → u.r = s.a)

/-- GCD writes the greatest common divisor of the operands read unsigned, after at most 23 iterations (R233). -/
def Obligations.GcdIsTheGreatestCommonDivisor : Prop :=
  (∀ s : State, exec .gcd s = .next { s with r := BitVec.ofNat 16 (Nat.gcd s.a.toNat s.b.toNat) }) ∧
  ∀ u v : Nat, u < 65536 → v < 65536 → gcdLoop 23 u v = Nat.gcd u v

/-- RATIO packs the fraction nearest to `a / S_NUM` with a denominator up to 16, in lowest terms, the smallest denominator
among equal errors; outside 0 .. 1.0 it faults `DOMAIN` (R237). -/
def Obligations.RatioIsTheNearestSmallFractionOrFaults : Prop :=
  ∀ s : State,
    (0 ≤ s.a.toInt ∧ s.a.toInt ≤ scale s.build .num → ∃ num den : Nat,
      1 ≤ den ∧ den ≤ 16 ∧ num ≤ den ∧ Nat.gcd num den = 1 ∧
      (∀ num' den' : Int, 1 ≤ den' → den' ≤ 16 →
        |num * scale s.build .num - s.a.toInt * den| * den' ≤
          |num' * scale s.build .num - s.a.toInt * den'| * den ∧
        (den' < den → |num * scale s.build .num - s.a.toInt * den| * den' <
          |num' * scale s.build .num - s.a.toInt * den'| * den)) ∧
      exec .ratio s = .next { s with r := BitVec.ofNat 16 (256 * num + den) }) ∧
    (s.a.toInt < 0 ∨ scale s.build .num < s.a.toInt → exec .ratio s = .next (afterFault s 2))

/-- SCALEU wraps the exact product and reports the overflow; SCALED rounds the quotient, overflows only for -32768 / -1 and
faults `DIVZERO` for `b = 0`; SCALED undoes a SCALEU that did not overflow (R238, R239). -/
def Obligations.ScaleuMultipliesAndScaledDivides : Prop :=
  ∀ s : State,
    (∃ w : Word, IsPattern w (s.a.toInt * s.b.toInt) ∧
      exec .scaleu s = .next { s with r := w, ovf := decide (OutOfRange (s.a.toInt * s.b.toInt)) }) ∧
    (s.b.toInt ≠ 0 → ∃ (q : Int) (w : Word), IsNearest s.a.toInt s.b.toInt q ∧ IsPattern w q ∧
      exec .scaled s = .next { s with r := w, ovf := decide (s.a.toInt = -32768 ∧ s.b.toInt = -1) }) ∧
    (s.b.toInt = 0 → exec .scaled s = .next (afterFault s 1)) ∧
    (s.b.toInt ≠ 0 ∧ ¬ OutOfRange (s.a.toInt * s.b.toInt) → ∃ t u : State, exec .scaleu s = .next t ∧
      exec .scaled { t with a := t.r } = .next u ∧ u.r = s.a ∧ u.ovf = false)
end

