-- ==== Sys2Proof/Laws/Numeric.lean ====
section
/-! SUPPORT. The spec lemmas of the number notation (00_scope.md R15 to R17): readings, narrowing, rounded
division, and the bounded searches. -/

namespace Sys2Proof.Machine

/-! ## Readings and narrowing -/

theorem s16_range (w : Word) : -32768 ≤ s16 w ∧ s16 w ≤ 32767 := by
  unfold s16; constructor <;> [have := BitVec.le_toInt w; have := BitVec.toInt_lt (x := w)] <;> omega

theorem not_outOfRange_s16 (w : Word) : ¬ OutOfRange (s16 w) := by
  have := s16_range w; unfold OutOfRange; omega

theorem s16_wrap16_eq_bmod (v : Int) : s16 (wrap16 v) = v.bmod 65536 := by
  simp [s16, wrap16, BitVec.toInt_ofInt]

/-- Narrowing changes a value by a multiple of 65536 (R15). -/
theorem isPattern_wrap16 (v : Int) : IsPattern (wrap16 v) v := by
  have h : (wrap16 v).toInt = v.bmod 65536 := s16_wrap16_eq_bmod v
  unfold IsPattern
  rw [h, Int.bmod_def]; split <;> omega

/-- A value that fits is read back unchanged (R15). -/
theorem s16_wrap16_of_fits {v : Int} (h : ¬ OutOfRange v) : s16 (wrap16 v) = v := by
  rw [s16_wrap16_eq_bmod]
  exact Int.bmod_eq_of_le (by unfold OutOfRange at h; omega) (by unfold OutOfRange at h; omega)

@[simp] theorem wrap16_s16 (w : Word) : wrap16 (s16 w) = w := by
  simp [wrap16, s16]

/-- The pattern of a value is unique. -/
theorem wrap16_eq_of_isPattern {w : Word} {v : Int} (h : IsPattern w v) : wrap16 v = w := by
  apply BitVec.eq_of_toInt_eq
  have h1 := isPattern_wrap16 v
  have h2 := s16_range w
  have h3 := s16_range (wrap16 v)
  unfold IsPattern at h h1; unfold s16 at h2 h3
  omega

theorem fits16_eq (v : Int) : fits16 v = decide (¬ OutOfRange v) := by
  unfold fits16 OutOfRange; congr 1; simp only [eq_iff_iff]; omega

/-- The high half first, then the low half, is the 32-bit value whenever it fits (R34). -/
theorem s32_halves {v : Int} (hl : -2147483648 ≤ v) (hh : v ≤ 2147483647) :
    s32 (wrap16 (asr v 16)) (wrap16 v) = v := by
  have h1 : wrap16 (asr v 16) ++ wrap16 v = BitVec.ofInt 32 v := by
    apply BitVec.eq_of_toNat_eq
    simp only [BitVec.toNat_append, wrap16, asr, BitVec.toNat_ofInt]
    have e1 : ((v / 2 ^ 16 % ((2 ^ 16 : Nat) : Int)).toNat) <<< 16 ||| (v % ((2 ^ 16 : Nat) : Int)).toNat =
        (v / 2 ^ 16 % ((2 ^ 16 : Nat) : Int)).toNat * 2 ^ 16 + (v % ((2 ^ 16 : Nat) : Int)).toNat := by
      rw [← Nat.shiftLeft_add_eq_or_of_lt (by omega), Nat.shiftLeft_eq]
    rw [e1]; omega
  rw [s32, h1, BitVec.toInt_ofInt]
  exact Int.bmod_eq_of_le (by omega) (by omega)

/-! ## Rounded division -/

/-- The nearest integer, ties away from zero, is one integer (R17). -/
theorem isNearest_unique {p d q q' : Int} (h : IsNearest p d q) (h' : IsNearest p d q') : q = q' := by
  obtain ⟨hd, h1, h2⟩ := h
  obtain ⟨-, h1', h2'⟩ := h'
  by_contra hne
  have hdp : 0 < |d| := abs_pos.mpr hd
  have key : |d| ≤ |q * d - q' * d| := by
    rw [← sub_mul, abs_mul]
    have : 1 ≤ |q - q'| := Int.one_le_abs (sub_ne_zero.mpr hne)
    nlinarith
  have tri : |q * d - q' * d| ≤ |p - q * d| + |p - q' * d| := by
    have := abs_sub (p - q' * d) (p - q * d)
    rw [show p - q' * d - (p - q * d) = q * d - q' * d by ring] at this
    linarith
  have e1 : 2 * |p - q * d| = |d| := by linarith
  have e2 : 2 * |p - q' * d| = |d| := by linarith
  have g1 := h2 e1
  have g2 := h2' e2
  have far : ∀ m : Int, m * d = 0 ∨ |d| ≤ |m * d| := fun m => by
    rcases eq_or_ne m 0 with rfl | hm
    · simp
    · right; rw [abs_mul]; nlinarith [Int.one_le_abs hm]
  have f1 := far q
  have f2 := far q'
  have hxy : q * d ≠ q' * d := fun e => hne (mul_right_cancel₀ hd e)
  generalize q * d = x at *
  generalize q' * d = y at *
  clear h1 h2 h1' h2' key tri far hne
  simp only [abs_eq_max_neg] at *
  omega

/-- The half-up quotient of a non-negative numerator is the nearest one. -/
theorem isNearest_of_nonneg {p d : Int} (hp : 0 ≤ p) (hd : 0 < d) : IsNearest p d ((p + d / 2) / d) := by
  have h1 := Int.mul_ediv_add_emod (p + d / 2) d
  have h2 := Int.emod_nonneg (p + d / 2) hd.ne'
  have h3 := Int.emod_lt_of_pos (p + d / 2) hd
  have h4 : 0 ≤ (p + d / 2) / d := Int.ediv_nonneg (by omega) hd.le
  have h5 : 0 ≤ (p + d / 2) / d * d := mul_nonneg h4 hd.le
  rw [mul_comm] at h1
  refine ⟨hd.ne', ?_, ?_⟩
  · rw [abs_of_pos hd]; rcases abs_cases (p - (p + d / 2) / d * d) with ⟨e, _⟩ | ⟨e, _⟩ <;> rw [e] <;> omega
  · rw [abs_of_pos hd, abs_of_nonneg hp, abs_of_nonneg h5]
    rcases abs_cases (p - (p + d / 2) / d * d) with ⟨e, _⟩ | ⟨e, _⟩ <;> rw [e] <;> omega

theorem isNearest_neg_num {p d q : Int} (h : IsNearest p d q) : IsNearest (-p) d (-q) := by
  obtain ⟨hd, h1, h2⟩ := h
  refine ⟨hd, ?_, ?_⟩
  · rwa [show -p - -q * d = -(p - q * d) by ring, abs_neg]
  · rwa [show -p - -q * d = -(p - q * d) by ring, abs_neg, abs_neg, neg_mul, abs_neg]

theorem isNearest_neg_den {p d q : Int} (h : IsNearest p d q) : IsNearest p (-d) (-q) := by
  obtain ⟨hd, h1, h2⟩ := h
  refine ⟨neg_ne_zero.mpr hd, ?_, ?_⟩
  · rwa [neg_mul_neg, abs_neg]
  · rwa [neg_mul_neg, abs_neg]

/-- `rdiv` rounds to nearest, ties away from zero (R17). -/
theorem rdiv_isNearest (p : Int) {d : Int} (hd : 0 < d) : IsNearest p d (rdiv p d) := by
  unfold rdiv
  split
  · exact isNearest_of_nonneg ‹_› hd
  · simpa using isNearest_neg_num (isNearest_of_nonneg (p := -p) (by omega) hd)

/-- `rdivs` does the same for a divisor of either sign (R17). -/
theorem rdivs_isNearest (n : Int) {d : Int} (hd : d ≠ 0) : IsNearest n d (rdivs n d) := by
  have hm : (((n.natAbs + d.natAbs / 2) / d.natAbs : Nat) : Int) = (|n| + |d| / 2) / |d| := by
    push_cast [Int.natCast_natAbs]; rfl
  have key : IsNearest |n| |d| ((|n| + |d| / 2) / |d|) := isNearest_of_nonneg (abs_nonneg n) (abs_pos.mpr hd)
  unfold rdivs
  simp only [hm]
  rcases lt_or_ge n 0 with h | h <;> rcases lt_or_ge d 0 with h' | h'
  · simpa [h, h', abs_of_neg h, abs_of_neg h'] using isNearest_neg_den (isNearest_neg_num key)
  · simpa [h, not_lt.mpr h', abs_of_neg h, abs_of_nonneg h'] using isNearest_neg_num key
  · simpa [not_lt.mpr h, h', abs_of_nonneg h, abs_of_neg h'] using isNearest_neg_den key
  · simpa [not_lt.mpr h, not_lt.mpr h', abs_of_nonneg h, abs_of_nonneg h'] using key

/-- `rdiv` and `rdivs` agree where both are defined (R17). -/
theorem rdivs_eq_rdiv (p : Int) {d : Int} (hd : 0 < d) : rdivs p d = rdiv p d :=
  isNearest_unique (rdivs_isNearest p hd.ne') (rdiv_isNearest p hd)

/-- An exact multiple is divided exactly. -/
theorem rdiv_mul_self (v : Int) {d : Int} (hd : 0 < d) : rdiv (v * d) d = v :=
  isNearest_unique (rdiv_isNearest _ hd) ⟨hd.ne', by simp, fun h => by simp⟩

theorem rdivs_mul_self (v : Int) {d : Int} (hd : d ≠ 0) : rdivs (v * d) d = v :=
  isNearest_unique (rdivs_isNearest _ hd) ⟨hd, by simp, fun h => by simp⟩

/-! ## Shifts -/

/-- An arithmetic shift right is the floor of the quotient (R16). -/
theorem asr_floor (v : Int) (i : Nat) : 2 ^ i * asr v i ≤ v ∧ v < 2 ^ i * asr v i + 2 ^ i := by
  have hp : (0 : Int) < 2 ^ i := by positivity
  have h1 := Int.mul_ediv_add_emod v (2 ^ i)
  have h2 := Int.emod_nonneg v hp.ne'
  have h3 := Int.emod_lt_of_pos v hp
  unfold asr; constructor <;> linarith

/-! ## Bounded searches -/

/-- The bitwise search finds a place where the test turns from true to false:
if the test holds at `lo` and fails at `lo + 2^bits`, then it holds at the result and fails right after it; for a
test that only changes once, the result is the last value that passes (R182, R212). -/
theorem bisect_spec (test : Nat → Bool) (bits lo : Nat) (h0 : test lo = true)
    (htop : test (lo + 2 ^ bits) = false) :
    lo ≤ bisect test bits lo ∧ bisect test bits lo < lo + 2 ^ bits ∧
      test (bisect test bits lo) = true ∧ test (bisect test bits lo + 1) = false := by
  induction bits generalizing lo with
  | zero => simpa [bisect] using ⟨h0, htop⟩
  | succ i ih =>
    have e : 2 ^ (i + 1) = 2 ^ i + 2 ^ i := by rw [pow_succ]; omega
    unfold bisect
    split
    · next ht =>
      obtain ⟨a1, a2, a3⟩ := ih (lo + 2 ^ i) ht (by rw [add_assoc, ← e]; exact htop)
      exact ⟨by omega, by omega, a3⟩
    · next ht =>
      have hf : test (lo + 2 ^ i) = false := by simpa using ht
      obtain ⟨a1, a2, a3⟩ := ih lo h0 hf
      exact ⟨a1, by omega, a3⟩

/-- `isqrt` is the integer square root on its whole domain (R182). -/
theorem isqrt_spec {v : Nat} (hv : v < 2 ^ 32) : isqrt v * isqrt v ≤ v ∧ v < (isqrt v + 1) * (isqrt v + 1) := by
  have h := bisect_spec (fun r => decide (r * r ≤ v)) 16 0 (by simp)
    (by simp only [decide_eq_false_iff_not]; omega)
  simpa [isqrt, not_le] using h.2.2

end Sys2Proof.Machine
end

