-- ==== Sys2Proof/Laws/State.lean ====
section
/-! SUPPORT. One lemma per field per update of the state, so that no proof unfolds a record update. -/

namespace Sys2Proof.Machine

/-! ### `State.setA` -/

@[simp] theorem State.setA_a (s : State) (w : Word) : (s.setA w).a = w := rfl
@[simp] theorem State.setA_b (s : State) (w : Word) : (s.setA w).b = s.b := rfl
@[simp] theorem State.setA_r (s : State) (w : Word) : (s.setA w).r = s.r := rfl
@[simp] theorem State.setA_rh (s : State) (w : Word) : (s.setA w).rh = s.rh := rfl
@[simp] theorem State.setA_ovf (s : State) (w : Word) : (s.setA w).ovf = s.ovf := rfl
@[simp] theorem State.setA_neg (s : State) (w : Word) : (s.setA w).neg = s.neg := rfl
@[simp] theorem State.setA_pv (s : State) (w : Word) : (s.setA w).pv = s.pv := rfl
@[simp] theorem State.setA_cause (s : State) (w : Word) : (s.setA w).cause = s.cause := rfl
@[simp] theorem State.setA_build (s : State) (w : Word) : (s.setA w).build = s.build := rfl
@[simp] theorem State.setA_requests (s : State) (w : Word) : (s.setA w).requests = s.requests := rfl
@[simp] theorem State.setA_replies (s : State) (w : Word) : (s.setA w).replies = s.replies := rfl

/-! ### `State.setB` -/

@[simp] theorem State.setB_a (s : State) (w : Word) : (s.setB w).a = s.a := rfl
@[simp] theorem State.setB_b (s : State) (w : Word) : (s.setB w).b = w := rfl
@[simp] theorem State.setB_r (s : State) (w : Word) : (s.setB w).r = s.r := rfl
@[simp] theorem State.setB_rh (s : State) (w : Word) : (s.setB w).rh = s.rh := rfl
@[simp] theorem State.setB_ovf (s : State) (w : Word) : (s.setB w).ovf = s.ovf := rfl
@[simp] theorem State.setB_neg (s : State) (w : Word) : (s.setB w).neg = s.neg := rfl
@[simp] theorem State.setB_pv (s : State) (w : Word) : (s.setB w).pv = s.pv := rfl
@[simp] theorem State.setB_cause (s : State) (w : Word) : (s.setB w).cause = s.cause := rfl
@[simp] theorem State.setB_build (s : State) (w : Word) : (s.setB w).build = s.build := rfl
@[simp] theorem State.setB_requests (s : State) (w : Word) : (s.setB w).requests = s.requests := rfl
@[simp] theorem State.setB_replies (s : State) (w : Word) : (s.setB w).replies = s.replies := rfl

/-! ### `State.setR` -/

@[simp] theorem State.setR_a (s : State) (w : Word) : (s.setR w).a = s.a := rfl
@[simp] theorem State.setR_b (s : State) (w : Word) : (s.setR w).b = s.b := rfl
@[simp] theorem State.setR_r (s : State) (w : Word) : (s.setR w).r = w := rfl
@[simp] theorem State.setR_rh (s : State) (w : Word) : (s.setR w).rh = s.rh := rfl
@[simp] theorem State.setR_ovf (s : State) (w : Word) : (s.setR w).ovf = s.ovf := rfl
@[simp] theorem State.setR_neg (s : State) (w : Word) : (s.setR w).neg = s.neg := rfl
@[simp] theorem State.setR_pv (s : State) (w : Word) : (s.setR w).pv = s.pv := rfl
@[simp] theorem State.setR_cause (s : State) (w : Word) : (s.setR w).cause = s.cause := rfl
@[simp] theorem State.setR_build (s : State) (w : Word) : (s.setR w).build = s.build := rfl
@[simp] theorem State.setR_requests (s : State) (w : Word) : (s.setR w).requests = s.requests := rfl
@[simp] theorem State.setR_replies (s : State) (w : Word) : (s.setR w).replies = s.replies := rfl

/-! ### `State.setRH` -/

@[simp] theorem State.setRH_a (s : State) (w : Word) : (s.setRH w).a = s.a := rfl
@[simp] theorem State.setRH_b (s : State) (w : Word) : (s.setRH w).b = s.b := rfl
@[simp] theorem State.setRH_r (s : State) (w : Word) : (s.setRH w).r = s.r := rfl
@[simp] theorem State.setRH_rh (s : State) (w : Word) : (s.setRH w).rh = w := rfl
@[simp] theorem State.setRH_ovf (s : State) (w : Word) : (s.setRH w).ovf = s.ovf := rfl
@[simp] theorem State.setRH_neg (s : State) (w : Word) : (s.setRH w).neg = s.neg := rfl
@[simp] theorem State.setRH_pv (s : State) (w : Word) : (s.setRH w).pv = s.pv := rfl
@[simp] theorem State.setRH_cause (s : State) (w : Word) : (s.setRH w).cause = s.cause := rfl
@[simp] theorem State.setRH_build (s : State) (w : Word) : (s.setRH w).build = s.build := rfl
@[simp] theorem State.setRH_requests (s : State) (w : Word) : (s.setRH w).requests = s.requests := rfl
@[simp] theorem State.setRH_replies (s : State) (w : Word) : (s.setRH w).replies = s.replies := rfl

/-! ### `State.setOvf` -/

@[simp] theorem State.setOvf_a (s : State) (f : Bool) : (s.setOvf f).a = s.a := rfl
@[simp] theorem State.setOvf_b (s : State) (f : Bool) : (s.setOvf f).b = s.b := rfl
@[simp] theorem State.setOvf_r (s : State) (f : Bool) : (s.setOvf f).r = s.r := rfl
@[simp] theorem State.setOvf_rh (s : State) (f : Bool) : (s.setOvf f).rh = s.rh := rfl
@[simp] theorem State.setOvf_ovf (s : State) (f : Bool) : (s.setOvf f).ovf = f := rfl
@[simp] theorem State.setOvf_neg (s : State) (f : Bool) : (s.setOvf f).neg = s.neg := rfl
@[simp] theorem State.setOvf_pv (s : State) (f : Bool) : (s.setOvf f).pv = s.pv := rfl
@[simp] theorem State.setOvf_cause (s : State) (f : Bool) : (s.setOvf f).cause = s.cause := rfl
@[simp] theorem State.setOvf_build (s : State) (f : Bool) : (s.setOvf f).build = s.build := rfl
@[simp] theorem State.setOvf_requests (s : State) (f : Bool) : (s.setOvf f).requests = s.requests := rfl
@[simp] theorem State.setOvf_replies (s : State) (f : Bool) : (s.setOvf f).replies = s.replies := rfl

/-! ### `State.setNeg` -/

@[simp] theorem State.setNeg_a (s : State) (f : Bool) : (s.setNeg f).a = s.a := rfl
@[simp] theorem State.setNeg_b (s : State) (f : Bool) : (s.setNeg f).b = s.b := rfl
@[simp] theorem State.setNeg_r (s : State) (f : Bool) : (s.setNeg f).r = s.r := rfl
@[simp] theorem State.setNeg_rh (s : State) (f : Bool) : (s.setNeg f).rh = s.rh := rfl
@[simp] theorem State.setNeg_ovf (s : State) (f : Bool) : (s.setNeg f).ovf = s.ovf := rfl
@[simp] theorem State.setNeg_neg (s : State) (f : Bool) : (s.setNeg f).neg = f := rfl
@[simp] theorem State.setNeg_pv (s : State) (f : Bool) : (s.setNeg f).pv = s.pv := rfl
@[simp] theorem State.setNeg_cause (s : State) (f : Bool) : (s.setNeg f).cause = s.cause := rfl
@[simp] theorem State.setNeg_build (s : State) (f : Bool) : (s.setNeg f).build = s.build := rfl
@[simp] theorem State.setNeg_requests (s : State) (f : Bool) : (s.setNeg f).requests = s.requests := rfl
@[simp] theorem State.setNeg_replies (s : State) (f : Bool) : (s.setNeg f).replies = s.replies := rfl

/-! ### `State.setPair` -/

@[simp] theorem State.setPair_a (s : State) (v : Int) : (s.setPair v).a = s.a := rfl
@[simp] theorem State.setPair_b (s : State) (v : Int) : (s.setPair v).b = s.b := rfl
@[simp] theorem State.setPair_r (s : State) (v : Int) : (s.setPair v).r = wrap16 v := rfl
@[simp] theorem State.setPair_rh (s : State) (v : Int) : (s.setPair v).rh = wrap16 (asr v 16) := rfl
@[simp] theorem State.setPair_ovf (s : State) (v : Int) : (s.setPair v).ovf = s.ovf := rfl
@[simp] theorem State.setPair_neg (s : State) (v : Int) : (s.setPair v).neg = s.neg := rfl
@[simp] theorem State.setPair_pv (s : State) (v : Int) : (s.setPair v).pv = s.pv := rfl
@[simp] theorem State.setPair_cause (s : State) (v : Int) : (s.setPair v).cause = s.cause := rfl
@[simp] theorem State.setPair_build (s : State) (v : Int) : (s.setPair v).build = s.build := rfl
@[simp] theorem State.setPair_requests (s : State) (v : Int) : (s.setPair v).requests = s.requests := rfl
@[simp] theorem State.setPair_replies (s : State) (v : Int) : (s.setPair v).replies = s.replies := rfl

/-! ### `State.raise` -/

@[simp] theorem State.raise_a (s : State) (c : FaultCause) : (s.raise c).a = s.a := rfl
@[simp] theorem State.raise_b (s : State) (c : FaultCause) : (s.raise c).b = s.b := rfl
@[simp] theorem State.raise_r (s : State) (c : FaultCause) : (s.raise c).r = s.r := rfl
@[simp] theorem State.raise_rh (s : State) (c : FaultCause) : (s.raise c).rh = s.rh := rfl
@[simp] theorem State.raise_ovf (s : State) (c : FaultCause) : (s.raise c).ovf = s.ovf := rfl
@[simp] theorem State.raise_neg (s : State) (c : FaultCause) : (s.raise c).neg = s.neg := rfl
@[simp] theorem State.raise_pv (s : State) (c : FaultCause) : (s.raise c).pv = true := rfl
@[simp] theorem State.raise_cause (s : State) (c : FaultCause) : (s.raise c).cause = if s.pv then s.cause else c.code := rfl
@[simp] theorem State.raise_build (s : State) (c : FaultCause) : (s.raise c).build = s.build := rfl
@[simp] theorem State.raise_requests (s : State) (c : FaultCause) : (s.raise c).requests = s.requests := rfl
@[simp] theorem State.raise_replies (s : State) (c : FaultCause) : (s.raise c).replies = s.replies := rfl

/-! ### `State.clearFlags` -/

@[simp] theorem State.clearFlags_a (s : State) : s.clearFlags.a = s.a := rfl
@[simp] theorem State.clearFlags_b (s : State) : s.clearFlags.b = s.b := rfl
@[simp] theorem State.clearFlags_r (s : State) : s.clearFlags.r = s.r := rfl
@[simp] theorem State.clearFlags_rh (s : State) : s.clearFlags.rh = s.rh := rfl
@[simp] theorem State.clearFlags_ovf (s : State) : s.clearFlags.ovf = false := rfl
@[simp] theorem State.clearFlags_neg (s : State) : s.clearFlags.neg = false := rfl
@[simp] theorem State.clearFlags_pv (s : State) : s.clearFlags.pv = false := rfl
@[simp] theorem State.clearFlags_cause (s : State) : s.clearFlags.cause = 0 := rfl
@[simp] theorem State.clearFlags_build (s : State) : s.clearFlags.build = s.build := rfl
@[simp] theorem State.clearFlags_requests (s : State) : s.clearFlags.requests = s.requests := rfl
@[simp] theorem State.clearFlags_replies (s : State) : s.clearFlags.replies = s.replies := rfl

/-! ### `State.writeStatus` -/

@[simp] theorem State.writeStatus_a (s : State) (d : Word) : (s.writeStatus d).a = s.a := rfl
@[simp] theorem State.writeStatus_b (s : State) (d : Word) : (s.writeStatus d).b = s.b := rfl
@[simp] theorem State.writeStatus_r (s : State) (d : Word) : (s.writeStatus d).r = s.r := rfl
@[simp] theorem State.writeStatus_rh (s : State) (d : Word) : (s.writeStatus d).rh = s.rh := rfl
@[simp] theorem State.writeStatus_ovf (s : State) (d : Word) : (s.writeStatus d).ovf = d.getLsbD 0 := rfl
@[simp] theorem State.writeStatus_neg (s : State) (d : Word) : (s.writeStatus d).neg = d.getLsbD 1 := rfl
@[simp] theorem State.writeStatus_pv (s : State) (d : Word) : (s.writeStatus d).pv = s.pv := rfl
@[simp] theorem State.writeStatus_cause (s : State) (d : Word) : (s.writeStatus d).cause = s.cause := rfl
@[simp] theorem State.writeStatus_build (s : State) (d : Word) : (s.writeStatus d).build = s.build := rfl
@[simp] theorem State.writeStatus_requests (s : State) (d : Word) : (s.writeStatus d).requests = s.requests := rfl
@[simp] theorem State.writeStatus_replies (s : State) (d : Word) : (s.writeStatus d).replies = s.replies := rfl

/-! ### `State.setResultOvf` -/

@[simp] theorem State.setResultOvf_a (s : State) (q : Int) : (s.setResultOvf q).a = s.a := rfl
@[simp] theorem State.setResultOvf_b (s : State) (q : Int) : (s.setResultOvf q).b = s.b := rfl
@[simp] theorem State.setResultOvf_r (s : State) (q : Int) : (s.setResultOvf q).r = wrap16 q := rfl
@[simp] theorem State.setResultOvf_rh (s : State) (q : Int) : (s.setResultOvf q).rh = s.rh := rfl
@[simp] theorem State.setResultOvf_ovf (s : State) (q : Int) : (s.setResultOvf q).ovf = overflowed q := rfl
@[simp] theorem State.setResultOvf_neg (s : State) (q : Int) : (s.setResultOvf q).neg = s.neg := rfl
@[simp] theorem State.setResultOvf_pv (s : State) (q : Int) : (s.setResultOvf q).pv = s.pv := rfl
@[simp] theorem State.setResultOvf_cause (s : State) (q : Int) : (s.setResultOvf q).cause = s.cause := rfl
@[simp] theorem State.setResultOvf_build (s : State) (q : Int) : (s.setResultOvf q).build = s.build := rfl
@[simp] theorem State.setResultOvf_requests (s : State) (q : Int) : (s.setResultOvf q).requests = s.requests := rfl
@[simp] theorem State.setResultOvf_replies (s : State) (q : Int) : (s.setResultOvf q).replies = s.replies := rfl

/-! ### `State.judge` -/

@[simp] theorem State.judge_a (s : State) (q : Int) : (s.judge q).a = s.a := rfl
@[simp] theorem State.judge_b (s : State) (q : Int) : (s.judge q).b = s.b := rfl
@[simp] theorem State.judge_r (s : State) (q : Int) : (s.judge q).r = s.r := rfl
@[simp] theorem State.judge_rh (s : State) (q : Int) : (s.judge q).rh = s.rh := rfl
@[simp] theorem State.judge_ovf (s : State) (q : Int) : (s.judge q).ovf = mismatched q s.opR := rfl
@[simp] theorem State.judge_neg (s : State) (q : Int) : (s.judge q).neg = s.neg := rfl
@[simp] theorem State.judge_pv (s : State) (q : Int) : (s.judge q).pv = s.pv := rfl
@[simp] theorem State.judge_cause (s : State) (q : Int) : (s.judge q).cause = s.cause := rfl
@[simp] theorem State.judge_build (s : State) (q : Int) : (s.judge q).build = s.build := rfl
@[simp] theorem State.judge_requests (s : State) (q : Int) : (s.judge q).requests = s.requests := rfl
@[simp] theorem State.judge_replies (s : State) (q : Int) : (s.judge q).replies = s.replies := rfl

/-! ### `State.resetUnit` -/

@[simp] theorem State.resetUnit_a (s : State) : s.resetUnit.a = 0 := rfl
@[simp] theorem State.resetUnit_b (s : State) : s.resetUnit.b = 0 := rfl
@[simp] theorem State.resetUnit_r (s : State) : s.resetUnit.r = 0 := rfl
@[simp] theorem State.resetUnit_rh (s : State) : s.resetUnit.rh = 0 := rfl
@[simp] theorem State.resetUnit_ovf (s : State) : s.resetUnit.ovf = false := rfl
@[simp] theorem State.resetUnit_neg (s : State) : s.resetUnit.neg = false := rfl
@[simp] theorem State.resetUnit_pv (s : State) : s.resetUnit.pv = false := rfl
@[simp] theorem State.resetUnit_cause (s : State) : s.resetUnit.cause = 0 := rfl
@[simp] theorem State.resetUnit_build (s : State) : s.resetUnit.build = s.build := rfl
@[simp] theorem State.resetUnit_requests (s : State) : s.resetUnit.requests = s.requests := rfl
@[simp] theorem State.resetUnit_replies (s : State) : s.resetUnit.replies = s.replies := rfl

/-! ### `State.requestCommand` -/

@[simp] theorem State.requestCommand_a (s : State) (d : Word) : (s.requestCommand d).a = s.a := rfl
@[simp] theorem State.requestCommand_b (s : State) (d : Word) : (s.requestCommand d).b = s.b := rfl
@[simp] theorem State.requestCommand_r (s : State) (d : Word) : (s.requestCommand d).r = s.r := rfl
@[simp] theorem State.requestCommand_rh (s : State) (d : Word) : (s.requestCommand d).rh = s.rh := rfl
@[simp] theorem State.requestCommand_ovf (s : State) (d : Word) : (s.requestCommand d).ovf = s.ovf := rfl
@[simp] theorem State.requestCommand_neg (s : State) (d : Word) : (s.requestCommand d).neg = s.neg := rfl
@[simp] theorem State.requestCommand_pv (s : State) (d : Word) : (s.requestCommand d).pv = s.pv := rfl
@[simp] theorem State.requestCommand_cause (s : State) (d : Word) : (s.requestCommand d).cause = s.cause := rfl
@[simp] theorem State.requestCommand_build (s : State) (d : Word) : (s.requestCommand d).build = s.build := rfl
@[simp] theorem State.requestCommand_requests (s : State) (d : Word) : (s.requestCommand d).requests = .write cmdAddr d :: s.requests := rfl
@[simp] theorem State.requestCommand_replies (s : State) (d : Word) : (s.requestCommand d).replies = s.replies := rfl

/-! ### Reset -/

@[simp] theorem State.resetOf_a (bd : Build) : (State.resetOf bd).a = 0 := rfl
@[simp] theorem State.resetOf_b (bd : Build) : (State.resetOf bd).b = 0 := rfl
@[simp] theorem State.resetOf_r (bd : Build) : (State.resetOf bd).r = 0 := rfl
@[simp] theorem State.resetOf_rh (bd : Build) : (State.resetOf bd).rh = 0 := rfl
@[simp] theorem State.resetOf_ovf (bd : Build) : (State.resetOf bd).ovf = false := rfl
@[simp] theorem State.resetOf_neg (bd : Build) : (State.resetOf bd).neg = false := rfl
@[simp] theorem State.resetOf_pv (bd : Build) : (State.resetOf bd).pv = false := rfl
@[simp] theorem State.resetOf_cause (bd : Build) : (State.resetOf bd).cause = 0 := rfl
@[simp] theorem State.resetOf_build (bd : Build) : (State.resetOf bd).build = bd := rfl
@[simp] theorem State.resetOf_requests (bd : Build) : (State.resetOf bd).requests = [] := rfl
@[simp] theorem State.resetOf_replies (bd : Build) : (State.resetOf bd).replies = [] := rfl

/-! ### Operands do not depend on results -/

@[simp] theorem State.opA_setB (s : State) (w : Word) : (s.setB w).opA = s.opA := rfl
@[simp] theorem State.opA_setR (s : State) (w : Word) : (s.setR w).opA = s.opA := rfl
@[simp] theorem State.opA_setRH (s : State) (w : Word) : (s.setRH w).opA = s.opA := rfl
@[simp] theorem State.opA_setOvf (s : State) (f : Bool) : (s.setOvf f).opA = s.opA := rfl
@[simp] theorem State.opA_setNeg (s : State) (f : Bool) : (s.setNeg f).opA = s.opA := rfl
@[simp] theorem State.opB_setA (s : State) (w : Word) : (s.setA w).opB = s.opB := rfl
@[simp] theorem State.opB_setR (s : State) (w : Word) : (s.setR w).opB = s.opB := rfl
@[simp] theorem State.opB_setRH (s : State) (w : Word) : (s.setRH w).opB = s.opB := rfl
@[simp] theorem State.opB_setOvf (s : State) (f : Bool) : (s.setOvf f).opB = s.opB := rfl
@[simp] theorem State.opB_setNeg (s : State) (f : Bool) : (s.setNeg f).opB = s.opB := rfl
@[simp] theorem State.opR_setA (s : State) (w : Word) : (s.setA w).opR = s.opR := rfl
@[simp] theorem State.opR_setB (s : State) (w : Word) : (s.setB w).opR = s.opR := rfl
@[simp] theorem State.opR_setRH (s : State) (w : Word) : (s.setRH w).opR = s.opR := rfl
@[simp] theorem State.opR_setOvf (s : State) (f : Bool) : (s.setOvf f).opR = s.opR := rfl
@[simp] theorem State.opR_setNeg (s : State) (f : Bool) : (s.setNeg f).opR = s.opR := rfl
@[simp] theorem State.opR_setR (s : State) (w : Word) : (s.setR w).opR = s16 w := rfl

/-- Two states with equal fields are equal: the way to compare what a meaning answers with a record literal. -/
theorem State.eq_of_fields {s t : State} (ha : s.a = t.a) (hb : s.b = t.b) (hr : s.r = t.r) (hrh : s.rh = t.rh)
    (ho : s.ovf = t.ovf) (hn : s.neg = t.neg) (hp : s.pv = t.pv) (hc : s.cause = t.cause)
    (hbd : s.build = t.build) (hq : s.requests = t.requests) (hy : s.replies = t.replies) : s = t := by
  cases s; cases t; simp_all

end Sys2Proof.Machine
end

