-- ==== Sys2Proof/Laws/Ops.lean ====
section
/-! SUPPORT. The spec lemmas of the shared operations over registers and flags: what each of them does, said once,
in the terms claims use. -/

namespace Sys2Proof.Machine

/-- Recording a fault is `afterFault` (R252). -/
theorem raise_eq_afterFault (s : State) (c : FaultCause) : s.raise c = afterFault s c.code := by
  cases s; simp [State.raise, afterFault]

theorem faultNext_eq (s : State) (c : FaultCause) : faultNext c s = .next (afterFault s c.code) := by
  rw [faultNext, raise_eq_afterFault]

/-- A recorded fault is sound whatever was recorded soundly before (R41, R252). -/
theorem raise_sound {s : State} (h : FaultRecordSound s) (c : FaultCause) : FaultRecordSound (s.raise c) := by
  cases hp : s.pv
  · cases c <;> simp [FaultRecordSound, State.raise, FaultCause.code, hp]
  · simpa [State.raise, FaultRecordSound, hp] using h

/-- `{RH, R}` after `setPair` is the 32-bit value (R34). -/
theorem setPair_value (s : State) {v : Int} (hl : -2147483648 ≤ v) (hh : v ≤ 2147483647) :
    ((s.setPair v).rh ++ (s.setPair v).r).toInt = v := by
  simpa [s32] using s32_halves hl hh

theorem setPair_eq (s : State) (v : Int) : s.setPair v = { s with r := wrap16 v, rh := wrap16 (asr v 16) } := rfl

/-- `OVF` of a combined command: the value is out of range (R38). -/
theorem overflowed_eq (v : Int) : overflowed v = decide (OutOfRange v) := by
  by_cases h : OutOfRange v <;> simp only [overflowed, fits16_eq, h] <;> rfl

/-- The end of a combined command: the pattern of the exact value, and whether it was out of range (R38). -/
theorem setResultOvf_eq (s : State) (q : Int) :
    s.setResultOvf q = { s with r := wrap16 q, ovf := decide (OutOfRange q) } := by
  simp only [State.setResultOvf, State.setR, State.setOvf, overflowed_eq]

/-- The end of a predicate: whether `R` differs from the exact value (R130). -/
theorem judge_eq (s : State) (q : Int) : s.judge q = { s with ovf := decide (q ≠ s.r.toInt) } := rfl

/-- Judging the wrapped value against the exact one answers whether it was out of range (R130, R275). -/
theorem mismatched_wrap16 (q : Int) : mismatched q (s16 (wrap16 q)) = decide (OutOfRange q) := by
  unfold mismatched
  by_cases h : OutOfRange q
  · have := not_outOfRange_s16 (wrap16 q)
    have : q ≠ s16 (wrap16 q) := fun e => this (e ▸ h)
    simp [h, this]
  · simp [h, s16_wrap16_of_fits h]

/-- Clamping is the nearer end of the range, or the value itself (R139). -/
theorem clamp16_eq (v : Int) : clamp16 v = max (-32768) (min 32767 v) := by
  unfold clamp16; omega

theorem s16_wrap16_clamp16 (v : Int) : s16 (wrap16 (clamp16 v)) = clamp16 v :=
  s16_wrap16_of_fits (by unfold OutOfRange clamp16; omega)

/-- The `STATUS` word bit by bit (R42): `OVF` bit 0, `NEG` bit 1, `PV` bit 2, `CAUSE` bits 6:4. -/
theorem statusWord_toNat (s : State) :
    s.statusWord.toNat = s.ovf.toNat + 2 * s.neg.toNat + 4 * s.pv.toNat + 16 * s.cause.toNat := by
  unfold State.statusWord
  generalize s.cause = c
  cases s.ovf <;> cases s.neg <;> cases s.pv <;> revert c <;> decide

/-- Reading back what a write to `STATUS` left: only bits 0 and 1 are writable (R43). -/
theorem writeStatus_frame (s : State) (d : Word) :
    s.writeStatus d = { s with ovf := d.getLsbD 0, neg := d.getLsbD 1 } := rfl

/-- The register space as the host reads it (R61). -/
theorem hostRead_cases (s : State) :
    s.hostRead 0 = s.a ∧ s.hostRead 1 = s.b ∧ s.hostRead 2 = s.r ∧ s.hostRead 3 = s.rh ∧ s.hostRead 4 = 0 ∧
      s.hostRead 5 = s.statusWord ∧ s.hostRead 6 = configWord s.build ∧ s.hostRead 7 = 0 :=
  ⟨rfl, rfl, rfl, rfl, rfl, rfl, rfl, rfl⟩

/-- The register space as the host stores to it, `CMD` apart (R62). -/
theorem hostStore_cases (s : State) (d : Word) :
    s.hostStore 0 d = { s with a := d } ∧ s.hostStore 1 d = { s with b := d } ∧
      s.hostStore 2 d = { s with r := d } ∧ s.hostStore 3 d = { s with rh := d } ∧
      s.hostStore 5 d = s.writeStatus d ∧ s.hostStore 6 d = s ∧ s.hostStore 7 d = s :=
  ⟨rfl, rfl, rfl, rfl, rfl, rfl, rfl⟩

/-- Whatever the address, a store leaves the fault record, the build and the host's queues alone (R62, R43). -/
theorem hostStore_frame (s : State) (addr : BitVec 3) (d : Word) :
    (s.hostStore addr d).pv = s.pv ∧ (s.hostStore addr d).cause = s.cause ∧
      (s.hostStore addr d).build = s.build ∧ (s.hostStore addr d).requests = s.requests ∧
      (s.hostStore addr d).replies = s.replies := by
  unfold State.hostStore; split <;> simp

/-- Read after write: a data register reads back what was stored to it (R61, R62). -/
theorem hostRead_hostStore_self (s : State) (d : Word) (addr : BitVec 3) (h : addr.toNat < 4) :
    (s.hostStore addr d).hostRead addr = d := by
  obtain rfl | rfl | rfl | rfl : addr = 0 ∨ addr = 1 ∨ addr = 2 ∨ addr = 3 := by revert addr; decide
  all_goals rfl

/-- A store to one address leaves every other address alone (R62). -/
theorem hostRead_hostStore_ne (s : State) (d : Word) {x y : BitVec 3} (h : x ≠ y) :
    (s.hostStore x d).hostRead y = s.hostRead y := by
  have hx : x = 0 ∨ x = 1 ∨ x = 2 ∨ x = 3 ∨ x = 4 ∨ x = 5 ∨ x = 6 ∨ x = 7 := by clear h; revert x; decide
  have hy : y = 0 ∨ y = 1 ∨ y = 2 ∨ y = 3 ∨ y = 4 ∨ y = 5 ∨ y = 6 ∨ y = 7 := by clear h; revert y; decide
  rcases hx with rfl | rfl | rfl | rfl | rfl | rfl | rfl | rfl <;>
    rcases hy with rfl | rfl | rfl | rfl | rfl | rfl | rfl | rfl <;> first | rfl | exact absurd rfl h

theorem resetUnit_eq (s : State) :
    s.resetUnit = { a := 0, b := 0, r := 0, rh := 0, ovf := false, neg := false, pv := false, cause := 0,
                    build := s.build, requests := s.requests, replies := s.replies } := rfl

/-! ## Constants -/

theorem sNum_pos (bd : Build) : 0 < sNum bd := by cases bd <;> decide
theorem sDeg_pos (bd : Build) : 0 < sDeg bd := by cases bd <;> decide
theorem scale_pos (bd : Build) (k : Kind) : 0 < scale bd k := by cases bd <;> cases k <;> decide
theorem scale_le (bd : Build) (k : Kind) : scale bd k ≤ 1024 := by cases bd <;> cases k <;> decide
theorem cTwoPi_pos (bd : Build) : 0 < cTwoPi bd := by cases bd <;> decide
theorem cLn10_pos (bd : Build) : 0 < cLn10 bd := by cases bd <;> decide
theorem cordicLC_pos (bd : Build) : 0 < cordicLC bd := by cases bd <;> decide
@[simp] theorem scale_num (bd : Build) : scale bd .num = sNum bd := rfl
@[simp] theorem scale_deg (bd : Build) : scale bd .deg = sDeg bd := rfl
@[simp] theorem scale_rad (bd : Build) : scale bd .rad = sRad bd := rfl
theorem cordicTable_eq_printed (bd : Build) : cordicTable bd = printedTable bd := by cases bd <;> rfl
theorem constVal_eq_printed (bd : Build) (m : BitVec 4) : constVal bd m = (printedConstants bd).getD m.toNat 0 := by
  cases bd <;> rfl

end Sys2Proof.Machine
end

