-- ==== Sys2Proof/Laws/Arith.lean ====
section
/-! SUPPORT. The loops of POW and FACT: the order of evaluation `runHalves` picks does not matter, and a run is a
sequence of steps (42_arith.md R141, 45_transcendental.md R216). -/

namespace Sys2Proof.Machine

@[simp] theorem forceNat_eq {α : Type} (n : Nat) (k : Nat → α) : forceNat n k = k n := by
  cases n <;> rfl

@[simp] theorem force_eq {α : Type} (p : Running) (k : Running → α) : p.force k = k p := by
  obtain ⟨acc, ov⟩ := p
  cases acc <;> cases ov <;> simp [Running.force]

theorem runPlain_add (f : Nat → Running → Running) (i m n : Nat) (p : Running) :
    runPlain f i (m + n) p = runPlain f (i + m) n (runPlain f i m p) := by
  induction m generalizing i p with
  | zero => simp [runPlain]
  | succ m ih => rw [Nat.succ_add]; simp only [runPlain]; rw [ih]; congr 1; omega

/-- The evaluation by halves is the plain loop wherever the fuel serves. -/
theorem runHalves_eq_runPlain (f : Nat → Running → Running) (fuel i n : Nat) (p : Running)
    (h : n ≤ 2 ^ fuel) : runHalves f (fuel + 1) i n p = runPlain f i n p := by
  induction fuel generalizing i n p with
  | zero =>
    obtain rfl | rfl : n = 0 ∨ n = 1 := by omega
    · simp [runHalves, runPlain]
    · simp [runHalves, runPlain]
  | succ fuel ih =>
    rw [runHalves]
    have h2 : 2 ^ (fuel + 1) = 2 * 2 ^ fuel := by rw [pow_succ]; omega
    split
    · next h0 => simp [h0, runPlain]
    · split
      · next h1 => simp [h1, runPlain]
      · rw [force_eq, ih _ _ _ (by omega), ih _ _ _ (by omega), ← runPlain_add]
        congr 1; omega

/-- The product of POW is the loop of R141 as it is written, for every exponent a register can hold. -/
theorem power_eq (bd : Build) (a : Int) {n : Nat} (h : n ≤ 32767) :
    power bd a n = runPlain (fun _ p => powStep bd a p) 0 n { acc := sNum bd, ov := false } :=
  runHalves_eq_runPlain _ 15 0 n _ (by omega)

/-- The state of a run before step `j`. -/
def runAt (f : Nat → Running → Running) (i : Nat) (p : Running) (j : Nat) : Running := runPlain f i j p

@[simp] theorem runAt_zero (f : Nat → Running → Running) (i : Nat) (p : Running) : runAt f i p 0 = p := rfl

theorem runAt_succ (f : Nat → Running → Running) (i : Nat) (p : Running) (j : Nat) :
    runAt f i p (j + 1) = f (i + j) (runAt f i p j) := by
  rw [runAt, runPlain_add]; rfl

/-- Narrowing keeps the pattern, fits 16 bits, and remembers an overflow (R141). -/
theorem narrow_spec (p : Running) (q : Int) :
    (65536 : Int) ∣ q - (p.narrow q).acc ∧ ¬ OutOfRange (p.narrow q).acc ∧
      (p.narrow q).ov = (p.ov || decide (OutOfRange q)) :=
  ⟨isPattern_wrap16 q, not_outOfRange_s16 _, by rw [← overflowed_eq]; rfl⟩

/-- The flag of a run of narrowing steps records whether any step overflowed. -/
theorem runAt_ov (g : Nat → Int → Int) (i : Nat) (a : Int) (n : Nat) :
    let f := fun j (p : Running) => p.narrow (g j p.acc)
    (runAt f i { acc := a, ov := false } n).ov = true ↔
      ∃ j < n, OutOfRange (g (i + j) (runAt f i { acc := a, ov := false } j).acc) := by
  intro f
  induction n with
  | zero => simp
  | succ n ih =>
    rw [runAt_succ, (narrow_spec _ _).2.2, Bool.or_eq_true, ih, decide_eq_true_eq]
    constructor
    · rintro (⟨j, hj, h⟩ | h)
      · exact ⟨j, by omega, h⟩
      · exact ⟨n, by omega, h⟩
    · rintro ⟨j, hj, h⟩
      rcases Nat.lt_succ_iff_lt_or_eq.mp hj with hj | rfl
      · exact .inl ⟨j, hj, h⟩
      · exact .inr h

end Sys2Proof.Machine
end

