-- ==== Sys2Proof/Laws/Kernels.lean ====
section
/-! SUPPORT. The spec lemmas of the shared kernels: the two CORDIC loops as sequences of iterations, unwinding, the
cofactor, the bisection of ROOT and the Euclidean loop. -/

namespace Sys2Proof.Machine

/-! ## CORDIC (43_cordic.md R164, R167; 44_inverse_trig.md R180, R182) -/

/-- The rotation loop is one iteration per table entry, in order. -/
theorem rotLoop_seq (ts : List Int) (i : Nat) (v : Cordic) :
    ∃ c : Nat → Cordic, c 0 = v ∧ (∀ j < ts.length, c (j + 1) = rotStep (i + j) (ts.getD j 0) (c j)) ∧
      c ts.length = rotLoop ts i v := by
  induction ts generalizing i v with
  | nil => exact ⟨fun _ => v, rfl, by simp, rfl⟩
  | cons t ts ih =>
    obtain ⟨c, h0, hs, hl⟩ := ih (i + 1) (rotStep i t v)
    refine ⟨fun j => match j with | 0 => v | j + 1 => c j, rfl, ?_, hl⟩
    rintro (_ | j) hj
    · exact h0
    · simpa [Nat.add_right_comm, Nat.add_assoc, Nat.add_comm 1] using hs j (by simpa using hj)

/-- The vectoring loop likewise. -/
theorem vecLoop_seq (ts : List Int) (i : Nat) (v : Cordic) :
    ∃ c : Nat → Cordic, c 0 = v ∧ (∀ j < ts.length, c (j + 1) = vecStep (i + j) (ts.getD j 0) (c j)) ∧
      c ts.length = vecLoop ts i v := by
  induction ts generalizing i v with
  | nil => exact ⟨fun _ => v, rfl, by simp, rfl⟩
  | cons t ts ih =>
    obtain ⟨c, h0, hs, hl⟩ := ih (i + 1) (vecStep i t v)
    refine ⟨fun j => match j with | 0 => v | j + 1 => c j, rfl, ?_, hl⟩
    rintro (_ | j) hj
    · exact h0
    · simpa [Nat.add_right_comm, Nat.add_assoc, Nat.add_comm 1] using hs j (by simpa using hj)

/-- Everything one rotation iteration can do (R167). -/
theorem rotStep_cases (i : Nat) (t : Int) (v : Cordic) :
    (0 ≤ v.z ∧ rotStep i t v = ⟨v.x - v.y / 2 ^ i, v.y + v.x / 2 ^ i, v.z - t⟩) ∨
      (v.z < 0 ∧ rotStep i t v = ⟨v.x + v.y / 2 ^ i, v.y - v.x / 2 ^ i, v.z + t⟩) := by
  unfold rotStep asr; split <;> [left; right] <;> exact ⟨by omega, rfl⟩

/-- Everything one vectoring iteration can do (R180). -/
theorem vecStep_cases (i : Nat) (t : Int) (v : Cordic) :
    (0 ≤ v.y ∧ vecStep i t v = ⟨v.x + v.y / 2 ^ i, v.y - v.x / 2 ^ i, v.z + t⟩) ∨
      (v.y < 0 ∧ vecStep i t v = ⟨v.x - v.y / 2 ^ i, v.y + v.x / 2 ^ i, v.z - t⟩) := by
  unfold vecStep asr; split <;> [left; right] <;> exact ⟨by omega, rfl⟩

/-- Unwinding reduces the angle to one circle and folds it into the first quadrant (R164). -/
theorem unwind_spec (bd : Build) (phi : Int) :
    IsUnwound bd phi (unwind bd phi).theta (unwind bd phi).ssin (unwind bd phi).scos := by
  refine ⟨phi % cTwoPi bd, Int.emod_nonneg _ (cTwoPi_pos bd).ne', Int.emod_lt_of_pos _ (cTwoPi_pos bd),
    Int.dvd_self_sub_emod, ?_⟩
  simp only [unwind]
  split
  · left; simp_all
  split
  · right; left; simp_all
  split
  · right; right; left; simp_all
  · right; right; right; simp_all

/-- The cofactor is the integer leg of the triangle for every operand ASIN and ACOS let through (R182). -/
theorem cofac_spec (bd : Build) {v : Int} (h : |v| ≤ sNum bd) : IsCofactor bd v (cofac bd v) := by
  have hn : sNum bd ≤ 128 := by cases bd <;> decide
  have hlo : 0 ≤ sNum bd * sNum bd - v * v := by
    nlinarith [abs_le.mp h]
  have hhi : sNum bd * sNum bd - v * v ≤ 16384 := by nlinarith [mul_self_nonneg v, sNum_pos bd]
  obtain ⟨m, hm⟩ := Int.eq_ofNat_of_zero_le (a := shl (sNum bd * sNum bd - v * v) 16) (by unfold shl; omega)
  have hb : m < 2 ^ 32 := by unfold shl at hm; omega
  obtain ⟨h1, h2⟩ := isqrt_spec hb
  have e : cofac bd v = (isqrt m : Nat) := by simp [cofac, hm]
  have e2 : (sNum bd * sNum bd - v * v) * 65536 = m := by simpa [shl] using hm
  refine ⟨by rw [e]; positivity, ?_, ?_⟩
  · simp only [scale_num, e, e2]; exact_mod_cast h1
  · simp only [scale_num, e, e2]; exact_mod_cast h2

/-- Length correction rounds to nearest (R162, R167). -/
theorem lengthCorrect_isNearest (bd : Build) (v : Int) :
    IsNearest (v * cordicK bd) (cordicLC bd) (lengthCorrect bd v) :=
  rdiv_isNearest _ (cordicLC_pos bd)

/-! ## ROOT (45_transcendental.md R212) -/

/-- What ROOT's 15 bisection steps find: the largest integer whose power does not exceed the target. -/
theorem root_bisect_spec {target n : Nat} (hn : 1 ≤ n) (ht : target < 32768 ^ n) :
    let lo := bisect (fun r => decide (r ^ n ≤ target)) 15 0
    lo ≤ 32767 ∧ lo ^ n ≤ target ∧ target < (lo + 1) ^ n := by
  have h := bisect_spec (fun r => decide (r ^ n ≤ target)) 15 0
    (by simp [Nat.zero_pow (by omega : 0 < n)])
    (by simpa using ht)
  obtain ⟨-, h1, h2, h3⟩ := h
  exact ⟨by omega, by simpa using h2, by simpa using h3⟩

/-! ## GCD (46_angle_rational.md R233) -/

/-- With enough fuel the Euclidean loop is the greatest common divisor. -/
theorem gcdLoop_eq_gcd (fuel u v : Nat) (h : v < fuel) : gcdLoop fuel u v = Nat.gcd u v := by
  induction fuel generalizing u v with
  | zero => omega
  | succ fuel ih =>
    unfold gcdLoop
    split
    · next h0 => simp [h0]
    · next h0 =>
      have := Nat.mod_lt u (Nat.pos_of_ne_zero h0)
      rw [ih _ _ (by omega), Nat.gcd_comm v, ← Nat.gcd_rec, Nat.gcd_comm]

end Sys2Proof.Machine
end

