-- ==== Sys2Proof/Laws/PerInstr.lean ====
section
/-! SUPPORT. Per command: the word the encoder gives it is legal (30_encoding.md R83, R84). -/

namespace Sys2Proof.Laws

/-- The word of the command meets the four conditions of R83. -/
def EncodedLegal.Statement (i : Instr) : Prop := legalWord (encode i) = true

theorem EncodedLegal.nop : EncodedLegal.Statement .nop := rfl
theorem EncodedLegal.clrf : EncodedLegal.Statement .clrf := rfl
theorem EncodedLegal.const (m : BitVec 4) : EncodedLegal.Statement (.const m) := by unfold EncodedLegal.Statement; revert m; decide
theorem EncodedLegal.ctab : EncodedLegal.Statement .ctab := rfl
theorem EncodedLegal.split (k : Kind) : EncodedLegal.Statement (.split k) := by cases k <;> rfl
theorem EncodedLegal.join (k : Kind) : EncodedLegal.Statement (.join k) := by cases k <;> rfl
theorem EncodedLegal.joinn (k : Kind) : EncodedLegal.Statement (.joinn k) := by cases k <;> rfl
theorem EncodedLegal.tobin : EncodedLegal.Statement .tobin := rfl
theorem EncodedLegal.todec : EncodedLegal.Statement .todec := rfl
theorem EncodedLegal.presc (k : Kind) : EncodedLegal.Statement (.presc k) := by cases k <;> rfl
theorem EncodedLegal.fixsc (k : Kind) : EncodedLegal.Statement (.fixsc k) := by cases k <;> rfl
theorem EncodedLegal.mul (k : Kind) : EncodedLegal.Statement (.mul k) := by cases k <;> rfl
theorem EncodedLegal.mulov (k : Kind) : EncodedLegal.Statement (.mulov k) := by cases k <;> rfl
theorem EncodedLegal.div (k : Kind) : EncodedLegal.Statement (.div k) := by cases k <;> rfl
theorem EncodedLegal.divov (k : Kind) : EncodedLegal.Statement (.divov k) := by cases k <;> rfl
theorem EncodedLegal.add : EncodedLegal.Statement .add := rfl
theorem EncodedLegal.addov : EncodedLegal.Statement .addov := rfl
theorem EncodedLegal.sub : EncodedLegal.Statement .sub := rfl
theorem EncodedLegal.subov : EncodedLegal.Statement .subov := rfl
theorem EncodedLegal.adds : EncodedLegal.Statement .adds := rfl
theorem EncodedLegal.subs : EncodedLegal.Statement .subs := rfl
theorem EncodedLegal.pow : EncodedLegal.Statement .pow := rfl
theorem EncodedLegal.powov : EncodedLegal.Statement .powov := rfl
theorem EncodedLegal.sin : EncodedLegal.Statement .sin := rfl
theorem EncodedLegal.cos : EncodedLegal.Statement .cos := rfl
theorem EncodedLegal.sincos : EncodedLegal.Statement .sincos := rfl
theorem EncodedLegal.tan : EncodedLegal.Statement .tan := rfl
theorem EncodedLegal.asin : EncodedLegal.Statement .asin := rfl
theorem EncodedLegal.acos : EncodedLegal.Statement .acos := rfl
theorem EncodedLegal.atan : EncodedLegal.Statement .atan := rfl
theorem EncodedLegal.atan2 : EncodedLegal.Statement .atan2 := rfl
theorem EncodedLegal.ln : EncodedLegal.Statement .ln := rfl
theorem EncodedLegal.logb : EncodedLegal.Statement .logb := rfl
theorem EncodedLegal.log10 : EncodedLegal.Statement .log10 := rfl
theorem EncodedLegal.exp : EncodedLegal.Statement .exp := rfl
theorem EncodedLegal.root : EncodedLegal.Statement .root := rfl
theorem EncodedLegal.sqrt : EncodedLegal.Statement .sqrt := rfl
theorem EncodedLegal.rootov : EncodedLegal.Statement .rootov := rfl
theorem EncodedLegal.fact : EncodedLegal.Statement .fact := rfl
theorem EncodedLegal.d2r : EncodedLegal.Statement .d2r := rfl
theorem EncodedLegal.r2d : EncodedLegal.Statement .r2d := rfl
theorem EncodedLegal.gcd : EncodedLegal.Statement .gcd := rfl
theorem EncodedLegal.ratio : EncodedLegal.Statement .ratio := rfl
theorem EncodedLegal.scaleu : EncodedLegal.Statement .scaleu := rfl
theorem EncodedLegal.scaled : EncodedLegal.Statement .scaled := rfl

end Sys2Proof.Laws
end

