-- ==== Sys2Proof/Laws/Step.lean ====
section
/-! SUPPORT. What a step can do, said once: the access it takes and what that access does (20_memory.md R61, R62;
30_encoding.md R90; 70_reset_and_hazards.md R270). Later proofs cite `step_cases` and never unfold `step`. -/

namespace Sys2Proof.Machine

theorem step_idle {s : State} (h : s.requests = []) : step s = .next s := by
  simp [step, portNext, h]

theorem step_read {s : State} {addr : BitVec 3} {rest : List Access} (h : s.requests = .read addr :: rest) :
    step s = .next { s with requests := rest, replies := s.replies ++ [s.hostRead addr] } := by
  simp only [step, portNext, h, portAccess]
  rfl

theorem step_reset {s : State} {rest : List Access} (h : s.requests = .reset :: rest) :
    step s = .next { s.resetUnit with requests := rest } := by
  simp only [step, portNext, h, portAccess]
  rfl

theorem step_store {s : State} {addr : BitVec 3} {d : Word} {rest : List Access}
    (h : s.requests = .write addr d :: rest) (ha : addr ≠ cmdAddr) :
    step s = .next (({ s with requests := rest } : State).hostStore addr d) := by
  simp only [step, portNext, h, portAccess, if_neg ha]

theorem step_command {s : State} {d : Word} {i : Instr} {rest : List Access}
    (h : s.requests = .write cmdAddr d :: rest) (hd : decode d = .ok i) :
    step s = exec i { s with requests := rest } := by
  simp only [step, portNext, h, portAccess, portCommand, hd, if_true]

theorem step_illegal {s : State} {d : Word} {why : Illegal} {rest : List Access}
    (h : s.requests = .write cmdAddr d :: rest) (hd : decode d = .error why) :
    step s = .next (({ s with requests := rest } : State).raise .illcmd) := by
  simp only [step, portNext, h, portAccess, portCommand, hd, if_true]

/-- Everything a step can do. -/
theorem step_cases (s : State) :
    (s.requests = [] ∧ step s = .next s) ∨
    (∃ addr rest, s.requests = .read addr :: rest ∧
      step s = .next { s with requests := rest, replies := s.replies ++ [s.hostRead addr] }) ∨
    (∃ rest, s.requests = .reset :: rest ∧ step s = .next { s.resetUnit with requests := rest }) ∨
    (∃ addr d rest, s.requests = .write addr d :: rest ∧ addr ≠ cmdAddr ∧
      step s = .next (({ s with requests := rest } : State).hostStore addr d)) ∨
    (∃ d why rest, s.requests = .write cmdAddr d :: rest ∧ decode d = .error why ∧
      step s = .next (({ s with requests := rest } : State).raise .illcmd)) ∨
    (∃ d i rest, s.requests = .write cmdAddr d :: rest ∧ decode d = .ok i ∧
      step s = exec i { s with requests := rest }) := by
  rcases h : s.requests with _ | ⟨⟨addr⟩ | ⟨addr, d⟩ | _, rest⟩
  · exact .inl ⟨rfl, step_idle h⟩
  · exact .inr (.inl ⟨addr, rest, rfl, step_read h⟩)
  · by_cases ha : addr = cmdAddr
    · subst ha
      rcases hd : decode d with why | i
      · exact .inr (.inr (.inr (.inr (.inl ⟨d, why, rest, rfl, hd, step_illegal h hd⟩))))
      · exact .inr (.inr (.inr (.inr (.inr ⟨d, i, rest, rfl, hd, step_command h hd⟩))))
    · exact .inr (.inr (.inr (.inl ⟨addr, d, rest, rfl, ha, step_store h ha⟩)))
  · exact .inr (.inr (.inl ⟨rest, rfl, step_reset h⟩))

end Sys2Proof.Machine
end

