-- ==== Sys2Proof/Tests/Slice0.lean ====
section
/-! SUPPORT. The model's own tests. Expected results come from the spec: words written out from 30_encoding.md
R84, rows of 96_derived_vectors.md (each test's comment gives the row's configuration and note), and witnesses
that the statements' hypotheses can be met, clause by clause. -/

namespace Sys2Proof.Tests

open Sys2Proof.Machine

-- One theorem after another: elaborated at once, the evaluations below each hold a thread while they wait.
set_option Elab.async false

/-! ## Well-formedness: an ill-formed word for each check, refused (R83) -/

theorem test_wf_refuses_reserved_bits :
    let f : CommandFields := { op := 0x14, k := 0, m := 0, z := 1 }
    f.reservedZero = false ∧ f.wellFormed = false := by decide
theorem test_wf_refuses_unlisted_opcode :
    let f : CommandFields := { op := 0x0A, k := 0, m := 0, z := 0 }
    f.opcodeListed = false ∧ f.wellFormed = false := by decide
theorem test_wf_refuses_kind_three :
    let f : CommandFields := { op := 0x10, k := 3, m := 0, z := 0 }
    f.kindAllowed = false ∧ f.wellFormed = false := by decide
theorem test_wf_refuses_kind_of_a_fixed_row :
    let f : CommandFields := { op := 0x14, k := 1, m := 0, z := 0 }
    f.kindAllowed = false ∧ f.wellFormed = false := by decide
theorem test_wf_refuses_modifier :
    let f : CommandFields := { op := 0x05, k := 0, m := 2, z := 0 }
    f.modifierAllowed = false ∧ f.wellFormed = false := by decide
theorem test_wf_accepts_joinn_rad :
    let f : CommandFields := { op := 0x05, k := 2, m := 1, z := 0 }
    f.wellFormed = true := by decide
theorem test_fields_of_word :
    CommandFields.ofWord 0b1010011011000011 = { op := 0b000011, k := 0b11, m := 0b0110, z := 0b1010 } := by decide

/-! ## Decoding: every command's word, `Z M K OP`, written out from R84 -/

theorem test_decode_nop : decode 0b0000000000000000 = .ok .nop := rfl
theorem test_decode_clrf : decode 0b0000000000000001 = .ok .clrf := rfl
theorem test_decode_const : decode 0b0000110100000010 = .ok (.const 13) := rfl
theorem test_decode_ctab : decode 0b0000000000000011 = .ok .ctab := rfl
theorem test_decode_split : decode 0b0000000000000100 = .ok (.split .num) := rfl
theorem test_decode_join : decode 0b0000000001000101 = .ok (.join .deg) := rfl
theorem test_decode_joinn : decode 0b0000000110000101 = .ok (.joinn .rad) := rfl
theorem test_decode_tobin : decode 0b0000000000000110 = .ok .tobin := rfl
theorem test_decode_todec : decode 0b0000000000000111 = .ok .todec := rfl
theorem test_decode_presc : decode 0b0000000000001000 = .ok (.presc .num) := rfl
theorem test_decode_fixsc : decode 0b0000000001001001 = .ok (.fixsc .deg) := rfl
theorem test_decode_mul : decode 0b0000000010010000 = .ok (.mul .rad) := rfl
theorem test_decode_mulov : decode 0b0000000000010001 = .ok (.mulov .num) := rfl
theorem test_decode_div : decode 0b0000000001010010 = .ok (.div .deg) := rfl
theorem test_decode_divov : decode 0b0000000010010011 = .ok (.divov .rad) := rfl
theorem test_decode_add : decode 0b0000000000010100 = .ok .add := rfl
theorem test_decode_addov : decode 0b0000000000010101 = .ok .addov := rfl
theorem test_decode_sub : decode 0b0000000000010110 = .ok .sub := rfl
theorem test_decode_subov : decode 0b0000000000010111 = .ok .subov := rfl
theorem test_decode_adds : decode 0b0000000000011000 = .ok .adds := rfl
theorem test_decode_subs : decode 0b0000000000011001 = .ok .subs := rfl
theorem test_decode_pow : decode 0b0000000000011010 = .ok .pow := rfl
theorem test_decode_powov : decode 0b0000000000011011 = .ok .powov := rfl
theorem test_decode_sin : decode 0b0000000000100000 = .ok .sin := rfl
theorem test_decode_cos : decode 0b0000000000100001 = .ok .cos := rfl
theorem test_decode_sincos : decode 0b0000000000100010 = .ok .sincos := rfl
theorem test_decode_tan : decode 0b0000000000100011 = .ok .tan := rfl
theorem test_decode_asin : decode 0b0000000000100100 = .ok .asin := rfl
theorem test_decode_acos : decode 0b0000000000100101 = .ok .acos := rfl
theorem test_decode_atan : decode 0b0000000000100110 = .ok .atan := rfl
theorem test_decode_atan2 : decode 0b0000000000100111 = .ok .atan2 := rfl
theorem test_decode_ln : decode 0b0000000000101000 = .ok .ln := rfl
theorem test_decode_logb : decode 0b0000000000101001 = .ok .logb := rfl
theorem test_decode_log10 : decode 0b0000000000101010 = .ok .log10 := rfl
theorem test_decode_exp : decode 0b0000000000101011 = .ok .exp := rfl
theorem test_decode_root : decode 0b0000000000101100 = .ok .root := rfl
theorem test_decode_sqrt : decode 0b0000000000101101 = .ok .sqrt := rfl
theorem test_decode_rootov : decode 0b0000000000101110 = .ok .rootov := rfl
theorem test_decode_fact : decode 0b0000000000101111 = .ok .fact := rfl
theorem test_decode_d2r : decode 0b0000000000110000 = .ok .d2r := rfl
theorem test_decode_r2d : decode 0b0000000000110001 = .ok .r2d := rfl
theorem test_decode_gcd : decode 0b0000000000110010 = .ok .gcd := rfl
theorem test_decode_ratio : decode 0b0000000000110011 = .ok .ratio := rfl
theorem test_decode_scaleu : decode 0b0000000000110100 = .ok .scaleu := rfl
theorem test_decode_scaled : decode 0b0000000100110100 = .ok .scaled := rfl

/-! Words R85 calls illegal. -/

theorem test_decode_refuses_kind_three : decode 0b0000000011010000 = .error .kindField := rfl
theorem test_decode_refuses_reserved_bit : decode 0b1000000000000010 = .error .reservedBits := rfl
theorem test_decode_refuses_unused_opcode : decode 0b0000000000111111 = .error .unusedOpcode := rfl
theorem test_decodeTableWord : decodeTableWord 16 0x0F02 = some (.const 15) ∧ decodeTableWord 16 0x00D0 = none := by decide
theorem test_decode_refuses_modifier : decode 0b0000001000110100 = .error .modifierField := rfl

/-! ## One step of each command, from 96_derived_vectors.md -/

/-- A state of build `bd` with the given registers, the two value flags given as the low bits of `status`. -/
def stateOf (bd : Build) (a b r rh status : Word) : State :=
  { State.resetOf bd with a := a, b := b, r := r, rh := rh, ovf := status.getLsbD 0, neg := status.getLsbD 1 }

/-- `R`, `RH` and `STATUS` after the host's write of the command word `w`; nothing if the step stops, or changes
`A` or `B`. -/
def after (w : Nat) (s : State) : Option (Word × Word × Word) :=
  match step (s.withFetchWord 16 w) with
  | .next t => if t.a = s.a ∧ t.b = s.b then some (t.r, t.rh, t.statusWord) else none
  | .fault _ => none
  | .refused _ => none

-- DEC NOP: RH = 0x5678 before; nothing changes, flags kept
theorem test_nop_1 : after 0x0000 (stateOf .dec 0x0007 0x0008 0x1234 0x5678 0x0003) =
    some (0x1234, 0x5678, 0x0003) := by decide +kernel
-- DEC CLRF: RH = 0x5678 before; OVF and NEG cleared, data kept
theorem test_clrf_1 : after 0x0001 (stateOf .dec 0x0007 0x0008 0x1234 0x5678 0x0003) =
    some (0x1234, 0x5678, 0x0000) := by decide +kernel
-- Q6.9 CONST.TWO_PI: not 2 x PI (3216)
theorem test_const_1 : after 0x0402 (stateOf .binQ69 0x0000 0x0000 0x0000 0x0000 0x0000) =
    some (0x0C91, 0x0000, 0x0000) := by decide +kernel
-- DEC CONST.PI: RH = 0x2222 before, overwritten with 0; OVF kept
theorem test_const_2 : after 0x0302 (stateOf .dec 0x0000 0x0000 0x1111 0x2222 0x0001) =
    some (0x0C46, 0x0000, 0x0001) := by decide +kernel
-- Q5.10 CTAB: T[0] = 51472 = 0x0000C910
theorem test_ctab_1 : after 0x0003 (stateOf .binQ510 0x0000 0x0000 0x0000 0x0000 0x0000) =
    some (0xC910, 0x0000, 0x0000) := by decide +kernel
-- DEC CTAB: RH = 0x5678 before; index = CORDIC_N: DOMAIN, R RH kept
theorem test_ctab_2 : after 0x0003 (stateOf .dec 0x000F 0x0000 0x1234 0x5678 0x0000) =
    some (0x1234, 0x5678, 0x0024) := by decide +kernel
-- Q5.10 SPLIT.DEG: -359 15/16
theorem test_split_1 : after 0x0044 (stateOf .binQ510 0xE981 0x0000 0x0000 0x0000 0x0000) =
    some (0xFE99, 0x000F, 0x0002) := by decide +kernel
-- DEC SPLIT: whole -12, fraction 34, NEG
theorem test_split_2 : after 0x0004 (stateOf .dec 0xFB2E 0x0000 0x0000 0x0000 0x0000) =
    some (0xFFF4, 0x0022, 0x0002) := by decide +kernel
-- Q6.9 JOIN.RAD: row of the table
theorem test_join_1 : after 0x0085 (stateOf .binQ69 0x0003 0x0048 0x0000 0x0000 0x0000) =
    some (0x0648, 0x0000, 0x0000) := by decide +kernel
-- Q5.10 JOIN: 32768: OVF
theorem test_join_2 : after 0x0005 (stateOf .binQ510 0x0100 0x0000 0x0000 0x0000 0x0000) =
    some (0x8000, 0x0000, 0x0001) := by decide +kernel
-- Q5.10 JOINN: row of the table
theorem test_joinn_1 : after 0x0105 (stateOf .binQ510 0x00FF 0x007F 0x0000 0x0000 0x0000) =
    some (0x8001, 0x0000, 0x0000) := by decide +kernel
-- DEC JOINN: -32768 fits: OVF cleared
theorem test_joinn_2 : after 0x0105 (stateOf .dec 0x0147 0x0044 0x0000 0x0000 0x0001) =
    some (0x8000, 0x0000, 0x0000) := by decide +kernel
-- Q5.10 TOBIN: the same in every configuration
theorem test_tobin_1 : after 0x0006 (stateOf .binQ510 0x0064 0x0000 0x0000 0x0000 0x0000) =
    some (0x0080, 0x0000, 0x0000) := by decide +kernel
-- DEC TOBIN: 32768: OVF
theorem test_tobin_2 : after 0x0006 (stateOf .dec 0x6400 0x0000 0x0000 0x0000 0x0000) =
    some (0x8000, 0x0000, 0x0001) := by decide +kernel
-- Q6.9 TODEC: the same in every configuration
theorem test_todec_1 : after 0x0007 (stateOf .binQ69 0x0080 0x0000 0x0000 0x0000 0x0000) =
    some (0x0064, 0x0000, 0x0000) := by decide +kernel
-- DEC TODEC: OVF not written
theorem test_todec_2 : after 0x0007 (stateOf .dec 0x0080 0x0000 0x0000 0x0000 0x0001) =
    some (0x0064, 0x0000, 0x0001) := by decide +kernel
-- Q6.9 PRESC.RAD: 0x00FFFE00
theorem test_presc_1 : after 0x0088 (stateOf .binQ69 0x7FFF 0x0000 0x0000 0x0000 0x0000) =
    some (0xFE00, 0x00FF, 0x0000) := by decide +kernel
-- DEC PRESC: 123400 = 0x0001E208
theorem test_presc_2 : after 0x0008 (stateOf .dec 0x04D2 0x0000 0x0000 0x0000 0x0000) =
    some (0xE208, 0x0001, 0x0000) := by decide +kernel
-- Q5.10 FIXSC.DEG: p = -8, S = 16: tie -> -1
theorem test_fixsc_1 : after 0x0049 (stateOf .binQ510 0xFFF8 0xFFFF 0x0000 0x0000 0x0000) =
    some (0xFFFF, 0x0000, 0x0000) := by decide +kernel
-- DEC FIXSC: p = -2^31: q = -21474836 wraps to 20972, OVF
theorem test_fixsc_2 : after 0x0009 (stateOf .dec 0x0000 0x8000 0x0000 0x0000 0x0000) =
    some (0x51EC, 0x0000, 0x0001) := by decide +kernel
-- Q6.9 MUL.RAD: pi x 0.5
theorem test_mul_1 : after 0x0090 (stateOf .binQ69 0x0648 0x0100 0x0000 0x0000 0x0000) =
    some (0x0324, 0x0000, 0x0000) := by decide +kernel
-- DEC MUL: 12.00 x 3.00 = 36.00; OVF not written
theorem test_mul_2 : after 0x0010 (stateOf .dec 0x04B0 0x012C 0x0000 0x0000 0x0001) =
    some (0x0E10, 0x0000, 0x0001) := by decide +kernel
-- DEC MULOV.RAD: row of the table
theorem test_mulov_1 : after 0x0091 (stateOf .dec 0x0C46 0x2EE0 0x9348 0x0000 0x0000) =
    some (0x9348, 0x0000, 0x0001) := by decide +kernel
-- Q5.10 MULOV: row of the table
theorem test_mulov_2 : after 0x0011 (stateOf .binQ510 0x6400 0x6400 0x2000 0x0000 0x0000) =
    some (0x2000, 0x0000, 0x0001) := by decide +kernel
-- Q6.9 DIV.RAD: pi / 2.0
theorem test_div_1 : after 0x0092 (stateOf .binQ69 0x0648 0x0400 0x0000 0x0000 0x0000) =
    some (0x0324, 0x0000, 0x0000) := by decide +kernel
-- DEC DIV: DIVZERO: R and OVF kept
theorem test_div_2 : after 0x0012 (stateOf .dec 0x0064 0x0000 0x1234 0x0000 0x0001) =
    some (0x1234, 0x0000, 0x0015) := by decide +kernel
-- DEC DIVOV: row of the table
theorem test_divov_1 : after 0x0013 (stateOf .dec 0x8000 0xFF9C 0x8000 0x0000 0x0000) =
    some (0x8000, 0x0000, 0x0001) := by decide +kernel
-- DEC DIVOV: row of the table
theorem test_divov_2 : after 0x0013 (stateOf .dec 0x7FFF 0x0001 0xFF9C 0x0000 0x0000) =
    some (0xFF9C, 0x0000, 0x0001) := by decide +kernel
-- DEC ADD: row of the table
theorem test_add_1 : after 0x0014 (stateOf .dec 0x8AD0 0xEC78 0x0000 0x0000 0x0000) =
    some (0x7748, 0x0000, 0x0000) := by decide +kernel
-- DEC ADD: OVF not written
theorem test_add_2 : after 0x0014 (stateOf .dec 0x0064 0xFF9C 0x0000 0x0000 0x0001) =
    some (0x0000, 0x0000, 0x0001) := by decide +kernel
-- DEC ADDOV: row of the table
theorem test_addov_1 : after 0x0015 (stateOf .dec 0x7530 0x1388 0x88B8 0x0000 0x0000) =
    some (0x88B8, 0x0000, 0x0001) := by decide +kernel
-- DEC ADDOV: R not the sum
theorem test_addov_2 : after 0x0015 (stateOf .dec 0x0001 0x0001 0x0003 0x0000 0x0000) =
    some (0x0003, 0x0000, 0x0001) := by decide +kernel
-- DEC SUB: row of the table
theorem test_sub_1 : after 0x0016 (stateOf .dec 0x8000 0x0001 0x0000 0x0000 0x0000) =
    some (0x7FFF, 0x0000, 0x0000) := by decide +kernel
-- DEC SUB: 0 - (-32768) = 32768 wraps
theorem test_sub_2 : after 0x0016 (stateOf .dec 0x0000 0x8000 0x0000 0x0000 0x0000) =
    some (0x8000, 0x0000, 0x0000) := by decide +kernel
-- DEC SUBOV: row of the table
theorem test_subov_1 : after 0x0017 (stateOf .dec 0x8000 0x0001 0x7FFF 0x0000 0x0000) =
    some (0x7FFF, 0x0000, 0x0001) := by decide +kernel
-- DEC SUBOV: row of the table
theorem test_subov_2 : after 0x0017 (stateOf .dec 0x0000 0x8000 0x8000 0x0000 0x0000) =
    some (0x8000, 0x0000, 0x0001) := by decide +kernel
-- DEC ADDS: row of the table
theorem test_adds_1 : after 0x0018 (stateOf .dec 0x8AD0 0xEC78 0x0000 0x0000 0x0000) =
    some (0x8000, 0x0000, 0x0001) := by decide +kernel
-- DEC ADDS: clamped
theorem test_adds_2 : after 0x0018 (stateOf .dec 0x7530 0x1388 0x0000 0x0000 0x0000) =
    some (0x7FFF, 0x0000, 0x0001) := by decide +kernel
-- DEC SUBS: row of the table
theorem test_subs_1 : after 0x0019 (stateOf .dec 0x8000 0x0001 0x0000 0x0000 0x0000) =
    some (0x8000, 0x0000, 0x0001) := by decide +kernel
-- DEC SUBS: row of the table
theorem test_subs_2 : after 0x0019 (stateOf .dec 0x0000 0x8000 0x0000 0x0000 0x0000) =
    some (0x7FFF, 0x0000, 0x0001) := by decide +kernel
-- Q5.10 POW: 2^8 = 256 overflows
theorem test_pow_1 : after 0x001A (stateOf .binQ510 0x0100 0x0008 0x0000 0x0000 0x0000) =
    some (0x8000, 0x0000, 0x0001) := by decide +kernel
-- DEC POW: 2^10 = 1024 overflows
theorem test_pow_2 : after 0x001A (stateOf .dec 0x00C8 0x000A 0x0000 0x0000 0x0000) =
    some (0x9000, 0x0000, 0x0001) := by decide +kernel
-- Q5.10 POWOV: row of the table
theorem test_powov_1 : after 0x001B (stateOf .binQ510 0x00C0 0x0003 0x01B0 0x0000 0x0000) =
    some (0x01B0, 0x0000, 0x0000) := by decide +kernel
-- DEC POWOV: row of the table
theorem test_powov_2 : after 0x001B (stateOf .dec 0x00C8 0x000A 0x9000 0x0000 0x0000) =
    some (0x9000, 0x0000, 0x0001) := by decide +kernel
-- DEC SIN: row of the table
theorem test_sin_1 : after 0x0020 (stateOf .dec 0x8000 0x0000 0x0000 0x0000 0x0000) =
    some (0xFF9E, 0x0000, 0x0000) := by decide +kernel
-- DEC SIN: HALF_PI
theorem test_sin_2 : after 0x0020 (stateOf .dec 0x0623 0x0000 0x0000 0x0000 0x0000) =
    some (0x0064, 0x0000, 0x0000) := by decide +kernel
-- DEC COS: row of the table
theorem test_cos_1 : after 0x0021 (stateOf .dec 0x0000 0x0000 0x0000 0x0000 0x0000) =
    some (0x0064, 0x0000, 0x0000) := by decide +kernel
-- DEC COS: row of the table
theorem test_cos_2 : after 0x0021 (stateOf .dec 0x0C46 0x0000 0x0000 0x0000 0x0000) =
    some (0xFF9C, 0x0000, 0x0000) := by decide +kernel
-- Q6.9 SINCOS: 1 rad
theorem test_sincos_1 : after 0x0022 (stateOf .binQ69 0x0200 0x0000 0x0000 0x0000 0x0000) =
    some (0x006C, 0x0045, 0x0000) := by decide +kernel
-- DEC SINCOS: R = sin, RH = cos
theorem test_sincos_2 : after 0x0022 (stateOf .dec 0x03E8 0x0000 0x0000 0x0000 0x0000) =
    some (0x0054, 0x0036, 0x0000) := by decide +kernel
-- Q6.9 TAN: pi/4
theorem test_tan_1 : after 0x0023 (stateOf .binQ69 0x0192 0x0000 0x0000 0x0000 0x0000) =
    some (0x007F, 0x0000, 0x0000) := by decide +kernel
-- DEC TAN: cos = 0: DIVZERO
theorem test_tan_2 : after 0x0023 (stateOf .dec 0x0623 0x0000 0x1234 0x0000 0x0000) =
    some (0x1234, 0x0000, 0x0014) := by decide +kernel
-- Q6.9 ASIN: row of the table
theorem test_asin_1 : after 0x0024 (stateOf .binQ69 0x0040 0x0000 0x0000 0x0000 0x0000) =
    some (0x010C, 0x0000, 0x0000) := by decide +kernel
-- DEC ASIN: outside [-1, 1]: DOMAIN
theorem test_asin_2 : after 0x0024 (stateOf .dec 0x0065 0x0000 0x1234 0x0000 0x0000) =
    some (0x1234, 0x0000, 0x0024) := by decide +kernel
-- Q6.9 ACOS: PI
theorem test_acos_1 : after 0x0025 (stateOf .binQ69 0xFF80 0x0000 0x0000 0x0000 0x0000) =
    some (0x0648, 0x0000, 0x0000) := by decide +kernel
-- DEC ACOS: DOMAIN
theorem test_acos_2 : after 0x0025 (stateOf .dec 0x7FFF 0x0000 0x1234 0x0000 0x0000) =
    some (0x1234, 0x0000, 0x0024) := by decide +kernel
-- Q6.9 ATAN: row of the table
theorem test_atan_1 : after 0x0026 (stateOf .binQ69 0x0080 0x0000 0x0000 0x0000 0x0000) =
    some (0x0192, 0x0000, 0x0000) := by decide +kernel
-- DEC ATAN: pi/4 = 0.7854
theorem test_atan_2 : after 0x0026 (stateOf .dec 0x0064 0x0000 0x0000 0x0000 0x0000) =
    some (0x0311, 0x0000, 0x0000) := by decide +kernel
-- Q6.9 ATAN2: row of the table
theorem test_atan2_1 : after 0x0027 (stateOf .binQ69 0x0080 0xFF80 0x0000 0x0000 0x0000) =
    some (0x04B6, 0x0000, 0x0000) := by decide +kernel
-- DEC ATAN2: origin: DOMAIN
theorem test_atan2_2 : after 0x0027 (stateOf .dec 0x0000 0x0000 0x1234 0x0000 0x0000) =
    some (0x1234, 0x0000, 0x0024) := by decide +kernel
-- Q5.10 LN: row of the table
theorem test_ln_1 : after 0x0028 (stateOf .binQ510 0x0100 0x0000 0x0000 0x0000 0x0000) =
    some (0x0059, 0x0000, 0x0000) := by decide +kernel
-- DEC LN: ln 2 = 0.6931; OVF not written
theorem test_ln_2 : after 0x0028 (stateOf .dec 0x00C8 0x0000 0x0000 0x0000 0x0001) =
    some (0x0045, 0x0000, 0x0001) := by decide +kernel
-- Q5.10 LOGB: 266 x 128 / 89
theorem test_logb_1 : after 0x0029 (stateOf .binQ510 0x0100 0x0400 0x0000 0x0000 0x0000) =
    some (0x017F, 0x0000, 0x0000) := by decide +kernel
-- DEC LOGB: q = 57900 wraps, OVF
theorem test_logb_2 : after 0x0029 (stateOf .dec 0x0065 0x7FFF 0x0000 0x0000 0x0000) =
    some (0xE22C, 0x0000, 0x0001) := by decide +kernel
-- Q5.10 LOG10: row of the table
theorem test_log10_1 : after 0x002A (stateOf .binQ510 0x3200 0x0000 0x0000 0x0000 0x0000) =
    some (0x0100, 0x0000, 0x0000) := by decide +kernel
-- DEC LOG10: log10 100 = 2.00
theorem test_log10_2 : after 0x002A (stateOf .dec 0x2710 0x0000 0x0000 0x0000 0x0000) =
    some (0x00C8, 0x0000, 0x0000) := by decide +kernel
-- Q5.10 EXP: row of the table
theorem test_exp_1 : after 0x002B (stateOf .binQ510 0xFD3B 0x0000 0x0000 0x0000 0x0000) =
    some (0x0001, 0x0000, 0x0000) := by decide +kernel
-- DEC EXP: saturates, OVF
theorem test_exp_2 : after 0x002B (stateOf .dec 0x0244 0x0000 0x0000 0x0000 0x0000) =
    some (0x7FFF, 0x0000, 0x0001) := by decide +kernel
-- Q5.10 ROOT: cube root of 27
theorem test_root_1 : after 0x002C (stateOf .binQ510 0x0D80 0x0003 0x0000 0x0000 0x0000) =
    some (0x0180, 0x0000, 0x0000) := by decide +kernel
-- DEC ROOT: negative radicand: DOMAIN even for odd n
theorem test_root_2 : after 0x002C (stateOf .dec 0xFF9C 0x0003 0x1234 0x0000 0x0000) =
    some (0x1234, 0x0000, 0x0024) := by decide +kernel
-- Q5.10 SQRT: row of the table
theorem test_sqrt_1 : after 0x002D (stateOf .binQ510 0x0100 0x0000 0x0000 0x0000 0x0000) =
    some (0x00B5, 0x0000, 0x0000) := by decide +kernel
-- DEC SQRT: DOMAIN
theorem test_sqrt_2 : after 0x002D (stateOf .dec 0xFFFF 0x0000 0x1234 0x0000 0x0000) =
    some (0x1234, 0x0000, 0x0024) := by decide +kernel
-- DEC ROOTOV: invalid operands: OVF, no fault
theorem test_rootov_1 : after 0x002E (stateOf .dec 0xFF9C 0x0002 0x1234 0x0000 0x0000) =
    some (0x1234, 0x0000, 0x0001) := by decide +kernel
-- DEC ROOTOV: R is not the root
theorem test_rootov_2 : after 0x002E (stateOf .dec 0x00C8 0x0002 0x008E 0x0000 0x0000) =
    some (0x008E, 0x0000, 0x0001) := by decide +kernel
-- Q5.10 FACT: row of the table
theorem test_fact_1 : after 0x002F (stateOf .binQ510 0x0005 0x0000 0x0000 0x0000 0x0000) =
    some (0x3C00, 0x0000, 0x0000) := by decide +kernel
-- DEC FACT: 72000 wraps
theorem test_fact_2 : after 0x002F (stateOf .dec 0x0006 0x0000 0x0000 0x0000 0x0000) =
    some (0x1940, 0x0000, 0x0001) := by decide +kernel
-- Q6.9 D2R: tie 1608.5 -> 1609, not PI
theorem test_d2r_1 : after 0x0030 (stateOf .binQ69 0x0B40 0x0000 0x0000 0x0000 0x0000) =
    some (0x0649, 0x0000, 0x0000) := by decide +kernel
-- DEC D2R: OVF
theorem test_d2r_2 : after 0x0030 (stateOf .dec 0x4957 0x0000 0x0000 0x0000 0x0000) =
    some (0x8000, 0x0000, 0x0001) := by decide +kernel
-- Q6.9 R2D: row of the table
theorem test_r2d_1 : after 0x0031 (stateOf .binQ69 0xB883 0x0000 0x0000 0x0000 0x0000) =
    some (0x8000, 0x0000, 0x0000) := by decide +kernel
-- Q6.9 R2D: OVF
theorem test_r2d_2 : after 0x0031 (stateOf .binQ69 0x477D 0x0000 0x0000 0x0000 0x0000) =
    some (0x8000, 0x0000, 0x0001) := by decide +kernel
-- DEC GCD: unsigned: 0x8000, 0xC000
theorem test_gcd_1 : after 0x0032 (stateOf .dec 0x8000 0xC000 0x0000 0x0000 0x0000) =
    some (0x4000, 0x0000, 0x0000) := by decide +kernel
-- DEC GCD: row of the table
theorem test_gcd_2 : after 0x0032 (stateOf .dec 0x000C 0x0012 0x0000 0x0000 0x0000) =
    some (0x0006, 0x0000, 0x0000) := by decide +kernel
-- Q5.10 RATIO: 1/2
theorem test_ratio_1 : after 0x0033 (stateOf .binQ510 0x0040 0x0000 0x0000 0x0000 0x0000) =
    some (0x0102, 0x0000, 0x0000) := by decide +kernel
-- DEC RATIO: above 1.00: DOMAIN
theorem test_ratio_2 : after 0x0033 (stateOf .dec 0x0065 0x0000 0x1234 0x0000 0x0000) =
    some (0x1234, 0x0000, 0x0024) := by decide +kernel
-- DEC SCALEU: 32768 wraps, OVF
theorem test_scaleu_1 : after 0x0034 (stateOf .dec 0x8000 0xFFFF 0x0000 0x0000 0x0000) =
    some (0x8000, 0x0000, 0x0001) := by decide +kernel
-- DEC SCALEU: 40000 wraps, OVF
theorem test_scaleu_2 : after 0x0034 (stateOf .dec 0x0FA0 0x000A 0x0000 0x0000 0x0000) =
    some (0x9C40, 0x0000, 0x0001) := by decide +kernel
-- DEC SCALED: tie -> -124
theorem test_scaled_1 : after 0x0134 (stateOf .dec 0xFB2D 0x000A 0x0000 0x0000 0x0000) =
    some (0xFF84, 0x0000, 0x0000) := by decide +kernel
-- DEC SCALED: the one overflow
theorem test_scaled_2 : after 0x0134 (stateOf .dec 0x8000 0xFFFF 0x0000 0x0000 0x0000) =
    some (0x8000, 0x0000, 0x0001) := by decide +kernel

/-! ## The port and the fault record (20_memory.md R61, R62; 60_exceptions.md R252; 70_reset_and_hazards.md R271) -/

/-- The state after the host's accesses `accs`, one step each. -/
def runAccesses (accs : List Access) (s : State) : State :=
  match Host.Core.run core accs.length { s with requests := accs } with
  | .next t => t
  | .fault _ => s
  | .refused _ => s

-- 93_implementation_defined.md: CONFIG reads 0x01F0, 0x01E1, 0x01E3 (R45).
theorem test_read_config : (runAccesses [.read 6] (State.resetOf .binQ69)).replies = [0x01E3] := by decide
-- R43: a write of 0xFFFF to STATUS sets OVF and NEG only.
theorem test_write_status : (runAccesses [.write 5 0xFFFF, .read 5] State.reset).replies = [0x0003] := by decide
-- R252: DIV by zero, then an illegal word: the first cause stays (0x0014); CLRF; then ILLCMD (0x0034).
theorem test_first_cause_is_kept :
    (runAccesses [.write 4 0x0012, .write 4 0x00D0, .read 5, .write 4 0x0001, .write 4 0x00D0, .read 5]
      State.reset).replies = [0x0014, 0x0034] := by decide
-- R271.
theorem test_reset_clears :
    (runAccesses [.write 0 5, .write 1 0, .write 4 0x0012, .reset, .read 0, .read 5] State.reset).replies = [0, 0] := by
  decide
-- R46, R44, R51: CMD and the reserved word read 0; a write to CONFIG or the reserved word does nothing.
theorem test_reserved_words :
    (runAccesses [.write 7 9, .write 6 9, .read 7, .read 4, .read 6] State.reset).replies = [0, 0, 0x01F0] := by decide

/-! ## Witnesses: the hypotheses of each statement can be met, clause by clause, at the ends of their ranges -/

/-- A state of build `bd` with the given operands. -/
def st (bd : Build) (a b : Int) : State := { State.resetOf bd with a := wrap16 a, b := wrap16 b }

theorem witness_EncodeOfDecodeIsTheWord : decode 0x0302 = .ok (.const 3) := rfl

theorem witness_StepRunsTheDecodedCommand :
    ((st .dec 2 3).requestCommand 0x0014).requests = .write 4 0x0014 :: [] ∧ decode 0x0014 = .ok .add := ⟨rfl, rfl⟩

theorem witness_IllegalWordRecordsIllcmdOnly :
    ((st .dec 2 3).requestCommand 0x00D0).requests = .write 4 0x00D0 :: [] ∧ legalWord 0x00D0 = false := by decide

theorem witness_HostReadReturnsTheAddressedWord :
    ∀ addr : BitVec 3, ({ st .dec 1 2 with requests := [.read addr, .reset] } : State).requests = .read addr :: [.reset] :=
  fun _ => rfl

theorem witness_HostWriteActsByAddress :
    (∀ (addr : BitVec 3) (d : Word),
      ({ st .dec 1 2 with requests := [.write addr d] } : State).requests = .write addr d :: []) ∧
    decode 0x0034 = .ok .scaleu ∧ legalWord 0x003F = false := ⟨fun _ _ => rfl, rfl, by decide⟩

theorem witness_ResetClearsEveryRegisterAndFlag :
    ({ st .dec 1 2 with requests := [.reset, .read 0] } : State).requests = .reset :: [.read 0] := rfl

theorem witness_EveryAccessCompletes : (st .dec 1 2).requests = [] := rfl

/-- A sound state with a recorded fault, about to run MUL, and its next state. -/
theorem witness_FaultRecordStaysSound :
    let s : State := { (st .dec 200 300).raise .domain with requests := [.write 4 0x0010] }
    let t : State := { (st .dec 200 300).raise .domain with r := 600 }
    FaultRecordSound s ∧ step s = .next t := ⟨by decide, rfl⟩

/-- CLRF clears a recorded fault; reset changes the cause while `PV` falls. -/
theorem witness_FaultRecordIsClearedOnlyByClrfOrReset :
    let s : State := { (st .dec 1 2).raise .domain with requests := [.write 4 0x0001] }
    let u : State := { (st .dec 1 2).raise .domain with requests := [.reset] }
    step s = .next (st .dec 1 2) ∧ (s.pv = true ∧ (st .dec 1 2).pv = false) ∧
      step u = .next State.reset ∧ (State.reset.cause ≠ u.cause ∧ ¬ (u.pv = false ∧ State.reset.pv = true)) :=
  ⟨rfl, by decide, rfl, by decide⟩

theorem witness_CommandsWriteOnlyTheirTableRow :
    (effects .addov).writesR = false ∧ (effects .add).writesRH = false ∧ (effects .add).writesOvf = false ∧
      (effects .add).writesNeg = false ∧ (effects .add).faults = [] ∧ Instr.add ≠ .clrf := by decide

/-- Both cases at a state with `PV` already set: DIV by zero faults again, ADD does not fault. -/
theorem witness_FaultingCommandsWriteOnlyTheFaultRecord :
    let s : State := (st .dec 7 0).raise .domain
    s.pv = true ∧ Instr.div .num ≠ .clrf ∧ Instr.add ≠ .clrf ∧
      exec (.div .num) { s with pv := false } = .next (afterFault { s with pv := false } 1) ∧
      exec .add { s with pv := false } = .next { s with pv := false, r := 7 } := ⟨rfl, by decide, by decide, rfl, rfl⟩

/-- Two different states that agree on what SIN reads. -/
theorem witness_CommandsDependOnlyOnTheRegistersTheyRead :
    let s := st .dec 100 1
    let s' : State := { (st .dec 100 2).raise .illcmd with r := 7, rh := 8, ovf := true, neg := true }
    s ≠ s' ∧ s.build = s'.build ∧ ((effects .sin).readsA = true → s.a = s'.a) ∧
      ((effects .sin).readsB = true → s.b = s'.b) ∧ ((effects .sin).readsR = true → s.r = s'.r) := by decide

/-- The same for a predicate, which reads `R` as well. -/
theorem witness_CommandsDependOnlyOnTheRegistersTheyRead_predicate :
    let s : State := { st .dec 100 1 with r := 5 }
    let s' : State := { (st .dec 100 1).raise .illcmd with r := 5, rh := 8 }
    s ≠ s' ∧ (effects .addov).readsR = true ∧ s.a = s'.a ∧ s.b = s'.b ∧ s.r = s'.r := by decide

theorem witness_CtabReadsATableEntryOrFaults :
    (∀ a ∈ [0, 14], 0 ≤ (st .dec a 0).a.toInt ∧ (st .dec a 0).a.toInt < (printedTable (st .dec a 0).build).length) ∧
    ((st .dec (-1) 0).a.toInt < 0) ∧ ((printedTable (st .dec 15 0).build).length ≤ (st .dec 15 0).a.toInt) ∧
    ((printedTable (st .binQ69 14 0).build).length ≤ (st .binQ69 14 0).a.toInt) := by decide

theorem witness_CordicTableIsTheRoundedArctangents :
    0 < cordicN .dec ∧ 14 < cordicN .dec ∧ 13 < cordicN .binQ510 ∧ 4 ∈ cordicTable .dec := by decide

theorem witness_SplitGivesWholeFractionAndSign :
    0 ≤ (st .dec 0 0).a.toInt ∧ (st .dec (-1) 0).a.toInt < 0 ∧ (st .dec (-32768) 0).a.toInt < 0 := by decide

theorem witness_JoinAndJoinnEncode :
    (∀ b ∈ [0, 99], 0 ≤ (st .dec (-3) b).b.toInt ∧ (st .dec (-3) b).b.toInt < scale (st .dec (-3) b).build .num) ∧
    (st .dec 3 (-1)).b.toInt < 0 ∧ scale (st .binQ510 3 16).build .deg ≤ (st .binQ510 3 16).b.toInt := by decide

theorem witness_ResolutionRoundTrips :
    ∀ a ∈ [-25600, 25599], -25600 ≤ (st .dec a 0).a.toInt ∧ (st .dec a 0).a.toInt ≤ 25599 := by decide

theorem witness_DivRoundsTheQuotientOrFaults :
    (st .dec 7 1).b.toInt ≠ 0 ∧ (st .dec 7 (-1)).b.toInt ≠ 0 ∧ (st .dec 7 0).b.toInt = 0 := by decide

theorem witness_DivovJudgesTheQuotient :
    (st .dec 7 (-32768)).b.toInt ≠ 0 ∧ (st .dec 7 0).b.toInt = 0 := by decide

theorem witness_PowIsRepeatedMultiplication :
    0 ≤ (st .dec 7 0).b.toInt ∧ 0 ≤ (st .dec 7 32767).b.toInt ∧ (st .dec 7 (-1)).b.toInt < 0 := by decide

theorem witness_PowovJudgesThePower : 0 ≤ (st .dec 7 0).b.toInt ∧ (st .dec 7 (-1)).b.toInt < 0 := by decide

theorem witness_PowerAndFactorialCorners :
    (st .dec (-5) 0).b.toInt = 0 ∧ (st .dec (-5) 1).b.toInt = 1 ∧
    (0 ≤ (st .dec 100 32767).b.toInt ∧ (st .dec 100 32767).a.toInt = scale (st .dec 100 32767).build .num) ∧
    (0 ≤ (st .binQ69 (-128) 0).b.toInt ∧ (st .binQ69 (-128) 0).a.toInt = -scale (st .binQ69 (-128) 0).build .num) ∧
    (∀ a ∈ [0, 5], 0 ≤ (st .dec a 0).a.toInt ∧ (st .dec a 0).a.toInt ≤ 5) ∧ 6 ≤ (st .dec 6 0).a.toInt := by decide

/-- Both ends of every band of R172, and the angles next to them. -/
theorem witness_TanDividesSineByCosineOrFaults :
    (∀ a ∈ [1566, 1576, 4708, 4717], TanPole .dec ((st .dec a 0).a.toInt % cTwoPi .dec)) ∧
    (∀ a ∈ [1565, 1577, 4707, 4718], ¬ TanPole .dec ((st .dec a 0).a.toInt % cTwoPi .dec)) ∧
    (∀ a ∈ [1605, 1612, 4822, 4829], TanPole .binQ510 ((st .binQ510 a 0).a.toInt % cTwoPi .binQ510)) ∧
    (∀ a ∈ [1604, 1613, 4821, 4830], ¬ TanPole .binQ510 ((st .binQ510 a 0).a.toInt % cTwoPi .binQ510)) ∧
    (∀ a ∈ [803, 805, 2411, 2414], TanPole .binQ69 ((st .binQ69 a 0).a.toInt % cTwoPi .binQ69)) ∧
    (∀ a ∈ [802, 806, 2410, 2415], ¬ TanPole .binQ69 ((st .binQ69 a 0).a.toInt % cTwoPi .binQ69)) := by decide

theorem witness_SineAndCosineArePeriodicAndExactAtQuarterTurns :
    ((st .dec 6383 0).build = (st .dec 100 0).build ∧
      (st .dec 6383 0).a.toInt = (st .dec 100 0).a.toInt + cTwoPi (st .dec 100 0).build) ∧
    (st .dec 0 0).a.toInt = 0 ∧ (st .dec 1571 0).a.toInt = cHalfPi .dec ∧ (st .binQ69 1608 0).a.toInt = cPi .binQ69 ∧
    (st .binQ510 4825 0).a.toInt = cThreeHalfPi .binQ510 := by
  decide

theorem witness_AsinAndAcosSolveTheTriangle :
    (∀ a ∈ [-100, -1, 0, 1, 100], |(st .dec a 0).a.toInt| ≤ scale (st .dec a 0).build .num) ∧
    0 < (st .dec 1 0).a.toInt ∧ (st .dec 0 0).a.toInt ≤ 0 ∧
    ∀ a ∈ [101, -101, -32768], scale (st .dec a 0).build .num < |(st .dec a 0).a.toInt| := by decide

theorem witness_AsinAndAcosRangesAndEndPoints :
    ∀ a ∈ [-128, 0, 128], |(st .binQ510 a 0).a.toInt| ≤ scale (st .binQ510 a 0).build .num := by decide

theorem witness_AtanAndAsinAreOdd :
    ((st .dec (-50) 0).build = (st .dec 50 0).build ∧ (st .dec (-50) 0).a.toInt = -(st .dec 50 0).a.toInt ∧
      |(st .dec 50 0).a.toInt| ≤ scale (st .dec 50 0).build .num) ∧
    ((st .dec (-32768) 0).build = (st .dec 32767 0).build ∧
      (st .dec 32767 0).a.toInt = 32767 ∧ (st .dec (-32768) 0).a.toInt = -32768) := by decide

/-- The positive x axis, the y axes, the negative x axis, the third quadrant, and the origin. -/
theorem witness_Atan2ResolvesTheFullCircleOrFaults :
    (0 ≤ (st .dec 0 1).a.toInt ∧ 0 < (st .dec 0 1).b.toInt) ∧
    (0 < (st .dec 1 0).a.toInt ∧ (st .dec 1 0).b.toInt ≤ 0) ∧
    ((st .dec 0 (-1)).a.toInt = 0 ∧ (st .dec 0 (-1)).b.toInt < 0) ∧
    ((st .dec (-1) (-1)).a.toInt < 0 ∧ (st .dec (-1) (-1)).b.toInt < 0) ∧
    ((st .dec (-1) 0).a.toInt < 0 ∧ 0 ≤ (st .dec (-1) 0).b.toInt) ∧
    ((st .dec 0 0).a.toInt = 0 ∧ (st .dec 0 0).b.toInt = 0) ∧
    ∀ p ∈ [((0 : Int), (1 : Int)), (1, 0), (0, -1), (-1, -1), (-1, 0)],
      ¬ ((st .dec p.1 p.2).a.toInt = 0 ∧ (st .dec p.1 p.2).b.toInt = 0) := by decide

theorem witness_LnIsTheSentinelOrTheSeries : (st .dec 0 0).a.toInt ≤ 0 ∧ 0 < (st .dec 1 0).a.toInt := by decide

theorem witness_LnOfPositiveNeverEqualsTheSentinel :
    0 < (st .dec 1 0).a.toInt ∧ 0 < (st .binQ69 32767 0).a.toInt ∧ (st .dec 1 0).build = .dec ∧
      (st .binQ69 1 0).build ≠ .dec := by decide

theorem witness_LogbAndLog10DivideTheLogarithms :
    (st .dec 0 5).a.toInt ≤ 0 ∧ (st .dec 5 0).b.toInt ≤ 0 ∧
    ((st .dec 100 1).a.toInt = scale (st .dec 100 1).build .num ∧ 0 < (st .dec 100 1).b.toInt) ∧
    (∀ a ∈ [1, 99, 101, 32767], 0 < (st .dec a 1).a.toInt ∧ (st .dec a 1).a.toInt ≠ scale (st .dec a 1).build .num ∧
      0 < (st .dec a 1).b.toInt) := by decide

theorem witness_ExpSaturatesAndUnderflowsWhereStated :
    (if (st .dec 580 0).build = .dec then 580 else 710) ≤ (st .dec 580 0).a.toInt ∧
    (if (st .binQ510 710 0).build = .dec then 580 else 710) ≤ (st .binQ510 710 0).a.toInt ∧
    (st .dec 0 0).a.toInt = 0 ∧ (st .dec 100 0).a.toInt = scale (st .dec 100 0).build .num := by decide

theorem witness_RootIsTheUniqueMinimiserOrFaults :
    (0 ≤ (st .dec 0 1).a.toInt ∧ 1 ≤ (st .dec 0 1).b.toInt) ∧
    (0 ≤ (st .dec 32767 32767).a.toInt ∧ 1 ≤ (st .dec 32767 32767).b.toInt) ∧
    (st .dec (-1) 1).a.toInt < 0 ∧ (st .dec 0 0).b.toInt < 1 := by decide

theorem witness_SqrtIsTheSecondRootAndRootovJudges :
    0 ≤ (st .dec 0 1).a.toInt ∧ (st .dec (-1) 1).a.toInt < 0 ∧ 1 ≤ (st .dec 0 1).b.toInt ∧ (st .dec 0 0).b.toInt < 1 := by
  decide

theorem witness_FactIsTheRunningProductOrFaults :
    0 ≤ (st .dec 0 0).a.toInt ∧ (st .dec (-1) 0).a.toInt < 0 := by decide

theorem witness_DegreeRoundTripWithinTolerance :
    (∀ a ∈ [0, 3599], 0 ≤ (st .dec a 0).a.toInt ∧ (st .dec a 0).a.toInt < 360 * scale (st .dec a 0).build .deg) ∧
    (∀ a ∈ [0, 5759], 0 ≤ (st .binQ69 a 0).a.toInt ∧
      (st .binQ69 a 0).a.toInt < 360 * scale (st .binQ69 a 0).build .deg) ∧ (st .binQ510 0 0).build ≠ .binQ69 := by
  decide

theorem witness_GcdIsTheGreatestCommonDivisor : 65535 < 65536 ∧ 0 < 65536 := by decide

theorem witness_RatioIsTheNearestSmallFractionOrFaults :
    (∀ a ∈ [0, 100], 0 ≤ (st .dec a 0).a.toInt ∧ (st .dec a 0).a.toInt ≤ scale (st .dec a 0).build .num) ∧
    (st .dec (-1) 0).a.toInt < 0 ∧ scale (st .dec 101 0).build .num < (st .dec 101 0).a.toInt := by decide

theorem witness_ScaleuMultipliesAndScaledDivides :
    (st .dec (-32768) (-1)).b.toInt ≠ 0 ∧ (st .dec 5 0).b.toInt = 0 ∧
    ((st .dec (-32768) 1).b.toInt ≠ 0 ∧
      ¬ OutOfRange ((st .dec (-32768) 1).a.toInt * (st .dec (-32768) 1).b.toInt)) := by decide

end Sys2Proof.Tests
end

section
/-! PROOFS. Every command but CLRF follows its row of the opcode map (30_encoding.md R84), said once for the frame and
for noninterference: which registers it reads, which registers and flags it writes, which causes it can record. -/

namespace Sys2Proof.Machine

/-! ## The columns of a row, as operations on the state -/

/-- `u` with everything a command of row `e` may read, the build included, taken from `s`. -/
def State.takeReads (u : State) (e : Effects) (s : State) : State :=
  { u with
    build := s.build
    a := if e.readsA then s.a else u.a
    b := if e.readsB then s.b else u.b
    r := if e.readsR then s.r else u.r }

/-- `u` with everything a command of row `e` writes when it does not fault taken from `t`. -/
def State.takeWrites (u : State) (e : Effects) (t : State) : State :=
  { u with
    r := if e.writesR then t.r else u.r
    rh := if e.writesRH then t.rh else u.rh
    ovf := if e.writesOvf then t.ovf else u.ovf
    neg := if e.writesNeg then t.neg else u.neg }

/-- Taking over what a row reads changes nothing in a state that agrees on it. -/
theorem State.takeReads_eq_self {u s : State} {e : Effects} (hbuild : s.build = u.build)
    (ha : e.readsA = true → s.a = u.a) (hb : e.readsB = true → s.b = u.b) (hr : e.readsR = true → s.r = u.r) :
    u.takeReads e s = u := by
  apply State.eq_of_fields <;> simp +contextual [State.takeReads, *]

@[simp] theorem State.takeReads_self (s : State) (e : Effects) : s.takeReads e s = s :=
  State.takeReads_eq_self rfl (fun _ => rfl) (fun _ => rfl) (fun _ => rfl)

/-! ## Following a row -/

/-- The meaning `m` follows the row `e`: from `s` it either faults with a cause of the row or answers the columns of
some `t`, and it does the same from every state that agrees with `s` on what the row reads (R84, R252). -/
def FollowsRow (e : Effects) (m : State → Result) : Prop :=
  ∀ s : State,
    (∃ c ∈ e.faults, ∀ u : State, m (u.takeReads e s) = .next (afterFault (u.takeReads e s) c.code)) ∨
    ∃ t : State, ∀ u : State, m (u.takeReads e s) = .next ((u.takeReads e s).takeWrites e t)

/-- A fault follows every row that lists its cause. -/
theorem FollowsRow.fault {e : Effects} {c : FaultCause} (hc : c ∈ e.faults) : FollowsRow e (faultNext c) :=
  fun _ => .inl ⟨c, hc, fun _ => faultNext_eq _ c⟩

/-- An update follows a row when it changes only the row's writes, to values that depend only on the row's reads. -/
theorem FollowsRow.next {e : Effects} {g : State → State}
    (hg : ∀ s u : State, g (u.takeReads e s) = (u.takeReads e s).takeWrites e (g s)) :
    FollowsRow e fun s => .next (g s) :=
  fun s => .inr ⟨g s, fun u => congrArg _ (hg s u)⟩

/-- A choice follows a row when both branches do and the condition depends only on the row's reads. -/
theorem FollowsRow.ite {e : Effects} {P : State → Prop} {inst : DecidablePred P} {m n : State → Result}
    (hP : ∀ s u : State, P (u.takeReads e s) ↔ P s) (hm : FollowsRow e m) (hn : FollowsRow e n) :
    FollowsRow e fun s => if P s then m s else n s := by
  intro s
  by_cases h : P s
  · simpa [hP, h] using hm s
  · simpa [hP, h] using hn s

/-- Every command but CLRF, which also clears the fault record, follows its row of R84. The side conditions hold by
computation: an operand is read through the record fields the row lists, and through no other. -/
theorem exec_followsRow : ∀ i : Instr, i ≠ .clrf → FollowsRow (effects i) (exec i)
  | .clrf, h => absurd rfl h
  -- commands that never fault, one formula
  | .nop, _ | .const _, _ | .split _, _ | .tobin, _ | .todec, _ | .presc _, _ | .fixsc _, _ | .mul _, _ | .add, _
  | .sub, _ | .adds, _ | .subs, _ | .sin, _ | .cos, _ | .sincos, _ | .atan, _ | .ln, _ | .exp, _ | .d2r, _ | .r2d, _
  | .gcd, _ | .scaleu, _ | .mulov _, _ | .addov, _ | .subov, _ => .next fun _ _ => rfl
  -- commands that never fault, two formulas
  | .divov _, _ | .powov, _ | .rootov, _ | .log10, _ =>
    .ite (fun _ _ => Iff.rfl) (.next fun _ _ => rfl) (.next fun _ _ => rfl)
  -- commands that fault or compute
  | .ctab, _ | .join _, _ | .joinn _, _ | .div _, _ | .pow, _ | .tan, _ | .asin, _ | .acos, _ | .atan2, _ | .root, _
  | .sqrt, _ | .fact, _ | .ratio, _ | .scaled, _ =>
    .ite (fun _ _ => Iff.rfl) (.fault (.head _)) (.next fun _ _ => rfl)
  -- LOGB tests for the sentinel before it can fault (R203)
  | .logb, _ =>
    .ite (fun _ _ => Iff.rfl) (.next fun _ _ => rfl)
      (.ite (fun _ _ => Iff.rfl) (.fault (.head _)) (.next fun _ _ => rfl))

/-- What a command other than CLRF does from one state: it records a fault of its row, or writes its row's columns. -/
theorem exec_cases {i : Instr} (hi : i ≠ .clrf) (s : State) :
    (∃ c ∈ (effects i).faults, exec i s = .next (afterFault s c.code)) ∨
    ∃ t : State, exec i s = .next (s.takeWrites (effects i) t) := by
  obtain ⟨c, hc, h⟩ | ⟨t, h⟩ := exec_followsRow i hi s
  · exact .inl ⟨c, hc, by simpa using h s⟩
  · exact .inr ⟨t, by simpa using h s⟩

/-- CLRF's meaning, the one command outside `exec_followsRow` (R101). -/
theorem exec_clrf (s : State) : exec .clrf s = .next s.clearFlags := rfl

/-! ## The statements -/

/-- Settles O15: a command records a fault, which touches only the fault record, or writes the columns of its row. -/
theorem commandsWriteOnlyTheirTableRow : Obligations.CommandsWriteOnlyTheirTableRow := by
  intro i s
  by_cases hi : i = .clrf
  · subst hi
    exact ⟨_, exec_clrf s, by simp [effects]⟩
  obtain ⟨c, hc, h⟩ | ⟨t, h⟩ := exec_cases hi s
  · exact ⟨_, h, by simp [afterFault, List.ne_nil_of_mem hc]⟩
  · exact ⟨_, h, by simp +contextual [State.takeWrites]⟩

/-- Settles O17: the second state takes over nothing from the first, so both fault with one cause or both write the
columns of one `t`. -/
theorem commandsDependOnlyOnTheRegistersTheyRead : Obligations.CommandsDependOnlyOnTheRegistersTheyRead := by
  intro i s s' hbuild ha hb hr
  have hself : s'.takeReads (effects i) s = s' := State.takeReads_eq_self hbuild ha hb hr
  by_cases hi : i = .clrf
  · subst hi
    exact .inr ⟨_, _, exec_clrf s, exec_clrf s', by simp [effects]⟩
  obtain ⟨c, -, h⟩ | ⟨t, h⟩ := exec_followsRow i hi s
  · exact .inl ⟨c, by simpa using h s, by simpa [hself] using h s'⟩
  · exact .inr ⟨_, _, by simpa using h s, by simpa [hself] using h s', by simp +contextual [State.takeWrites]⟩

end Sys2Proof.Machine
end

section
/-! PROOFS. The fault record (10_state.md R40, R41; 60_exceptions.md R252): what one step can do to `PV` and `CAUSE`,
said once, and what follows for every step. -/

namespace Sys2Proof.Machine

/-- `t` holds the fault record of `s`: the same `PV` and the same `CAUSE`. -/
def SameFaultRecord (s t : State) : Prop := t.pv = s.pv ∧ t.cause = s.cause

/-- Soundness looks at the fault record only. -/
theorem faultRecordSound_of_same {s t : State} (hs : FaultRecordSound s) (h : SameFaultRecord s t) :
    FaultRecordSound t := by
  obtain ⟨hpv, hcause⟩ := h
  simpa [FaultRecordSound, hpv, hcause] using hs

/-- An empty fault record is sound. -/
theorem faultRecordSound_of_cleared {s : State} (hpv : s.pv = false) (hcause : s.cause = 0) : FaultRecordSound s := by
  simp [FaultRecordSound, hpv, hcause]

/-- The host's next access is the write of CLRF's word to `CMD`, or a reset. -/
def ClearsNext (s : State) : Prop :=
  (∃ d rest, s.requests = .write cmdAddr d :: rest ∧ decode d = .ok .clrf) ∨ ∃ rest, s.requests = .reset :: rest

/-- What a command other than CLRF does to the fault record: nothing, or it records a fault (R84, R252). -/
theorem exec_faultRecord {i : Instr} (hi : i ≠ .clrf) {s t : State} (h : exec i s = .next t) :
    SameFaultRecord s t ∨ ∃ c, SameFaultRecord (s.raise c) t := by
  obtain ⟨c, -, hf⟩ | ⟨u, hw⟩ := exec_cases hi s
  · cases hf.symm.trans h
    exact .inr ⟨c, by rw [raise_eq_afterFault]; exact ⟨rfl, rfl⟩⟩
  · cases hw.symm.trans h
    exact .inl ⟨rfl, rfl⟩

/-- What a step does to the fault record: nothing, or it records a fault, or, by CLRF and reset only, it empties the
record (R40, R41, R101, R252, R271). -/
theorem step_faultRecord {s t : State} (h : step s = .next t) :
    SameFaultRecord s t ∨ (∃ c, SameFaultRecord (s.raise c) t) ∨ (ClearsNext s ∧ t.pv = false ∧ t.cause = 0) := by
  obtain ⟨-, hstep⟩ | ⟨addr, rest, -, hstep⟩ | ⟨rest, hreq, hstep⟩ | ⟨addr, d, rest, -, -, hstep⟩ |
    ⟨d, why, rest, -, -, hstep⟩ | ⟨d, i, rest, hreq, hd, hstep⟩ := step_cases s <;> rw [hstep] at h
  · cases h; exact .inl ⟨rfl, rfl⟩
  · cases h; exact .inl ⟨rfl, rfl⟩
  · cases h; exact .inr (.inr ⟨.inr ⟨rest, hreq⟩, rfl, rfl⟩)
  · cases h
    obtain ⟨hpv, hcause, -⟩ := hostStore_frame { s with requests := rest } addr d
    exact .inl ⟨hpv, hcause⟩
  · cases h; exact .inr (.inl ⟨.illcmd, rfl, rfl⟩)
  · by_cases hi : i = .clrf
    · subst hi
      cases (exec_clrf _).symm.trans h
      exact .inr (.inr ⟨.inl ⟨d, rest, hreq, hd⟩, rfl, rfl⟩)
    · exact (exec_faultRecord hi h).imp id .inl

/-- Settles O12: an unchanged record stays sound, a recorded fault is sound, an empty record is sound. -/
theorem faultRecordStaysSound : Obligations.FaultRecordStaysSound := by
  intro s t hs hstep
  obtain hsame | ⟨c, hraise⟩ | ⟨-, hpv, hcause⟩ := step_faultRecord hstep
  · exact faultRecordSound_of_same hs hsame
  · exact faultRecordSound_of_same (raise_sound hs c) hraise
  · exact faultRecordSound_of_cleared hpv hcause

/-- Settles O14: neither an unchanged record nor a recorded fault clears `PV`, and a fault changes `CAUSE` only when it
is the first. -/
theorem faultRecordIsClearedOnlyByClrfOrReset : Obligations.FaultRecordIsClearedOnlyByClrfOrReset := by
  intro s t hstep hchange
  obtain ⟨hpv, hcause⟩ | ⟨c, hpv, hcause⟩ | ⟨hclears, -, -⟩ := step_faultRecord hstep
  · simp [hpv, hcause] at hchange
  · cases hs : s.pv <;> simp [hs, hpv, hcause] at hchange
  · exact hclears

/-- Settles O13: reset leaves an empty record. -/
theorem faultRecordSoundAfterReset : Obligations.FaultRecordSoundAfterReset := by
  have hreset : ∀ bd : Build, FaultRecordSound (State.resetOf bd) := fun _ => faultRecordSound_of_cleared rfl rfl
  exact ⟨hreset .dec, hreset⟩

end Sys2Proof.Machine
end

section
/-! PROOFS. The derived constants (10_state.md R48) against the real numbers they stand for. Each follows from a decimal
enclosure of the number that is narrow enough for every scale. -/

namespace Sys2Proof.Machine

/-- The fractions of the full circle, from `π` to six decimals: `3π/2 * 1024` is within 0.49 of its constant. -/
theorem circleConstants_rounded (bd : Build) :
    |(cPi bd : ℝ) - Real.pi * (sRad bd : ℝ)| < 1 / 2 ∧
    |(cTwoPi bd : ℝ) - 2 * Real.pi * (sRad bd : ℝ)| < 1 / 2 ∧
    |(cHalfPi bd : ℝ) - Real.pi / 2 * (sRad bd : ℝ)| < 1 / 2 ∧
    |(cThreeHalfPi bd : ℝ) - 3 * Real.pi / 2 * (sRad bd : ℝ)| < 1 / 2 := by
  have hlow := Real.pi_gt_d6
  have hhigh := Real.pi_lt_d6
  simp only [abs_sub_lt_iff]
  cases bd <;> norm_num only [cPi, cTwoPi, cHalfPi, cThreeHalfPi, sRad] <;>
    refine ⟨⟨?_, ?_⟩, ⟨?_, ?_⟩, ⟨?_, ?_⟩, ?_, ?_⟩ <;> linarith

theorem cE_rounded (bd : Build) : |(cE bd : ℝ) - Real.exp 1 * (sNum bd : ℝ)| < 1 / 2 := by
  have hlow := Real.exp_one_gt_d9
  have hhigh := Real.exp_one_lt_d9
  rw [abs_sub_lt_iff]
  cases bd <;> norm_num only [cE, sNum] <;> constructor <;> linarith

/-- `log 10` is `log 2 + log 5`, both enclosed by Mathlib. -/
theorem cLn10_rounded (bd : Build) : |(cLn10 bd : ℝ) - Real.log 10 * (sNum bd : ℝ)| < 1 / 2 := by
  have h2low := Real.log_two_gt_d9
  have h2high := Real.log_two_lt_d9
  have h5low := Real.log_five_gt_d9
  have h5high := Real.log_five_lt_d9
  rw [Real.log_ten_eq, abs_sub_lt_iff]
  cases bd <;> norm_num only [cLn10, sNum] <;> constructor <;> linarith

theorem cDegPerRad_rounded (bd : Build) : |(cDegPerRad bd : ℝ) - 180 / Real.pi * (sDeg bd : ℝ)| < 1 / 2 := by
  have hlow : 57.29 < 180 / Real.pi := by rw [lt_div_iff₀ Real.pi_pos]; linarith [Real.pi_lt_d6]
  have hhigh : 180 / Real.pi < 57.3 := by rw [div_lt_iff₀ Real.pi_pos]; linarith [Real.pi_gt_d6]
  rw [abs_sub_lt_iff]
  cases bd <;> norm_num only [cDegPerRad, sDeg] <;> constructor <;> linarith

theorem cRadPerDeg_rounded (bd : Build) : |(cRadPerDeg bd : ℝ) - Real.pi / 180 * (sRad bd : ℝ)| < 1 / 2 := by
  have hlow := Real.pi_gt_d6
  have hhigh := Real.pi_lt_d6
  rw [abs_sub_lt_iff]
  cases bd <;> norm_num only [cRadPerDeg, sRad] <;> constructor <;> linarith

/-- Settles O20: each constant by the enclosure of its own real number. -/
theorem derivedConstantsAreTheRoundedReals : Obligations.DerivedConstantsAreTheRoundedReals := by
  intro bd
  obtain ⟨hpi, htwo, hhalf, hthreeHalf⟩ := circleConstants_rounded bd
  exact ⟨hpi, htwo, hhalf, hthreeHalf, cE_rounded bd, cLn10_rounded bd, cDegPerRad_rounded bd, cRadPerDeg_rounded bd⟩

end Sys2Proof.Machine
end

section
/-! PROOFS. What an accepted command word is (30_encoding.md R80, R83, R84): the word of the command it decodes to, hence
legal; so every illegal word is rejected (R85). -/

namespace Sys2Proof

/-! ## The rows of the decoder, one inversion lemma per kind of row -/

/-- An accepted word of a row without a kind has `K` = 0 and `M` = 0 (R84). -/
theorem eq_of_decodeFixed_ok {d : Word} {i j : Instr} (h : decodeFixed d j = .ok i) :
    i = j ∧ kField d = 0 ∧ mField d = 0 := by
  unfold decodeFixed at h
  split at h
  · cases h
  split at h
  · cases h
  cases h
  exact ⟨rfl, not_not.mp ‹_›, not_not.mp ‹_›⟩

theorem eq_of_decodeConst_ok {d : Word} {i : Instr} (h : decodeConst d = .ok i) :
    i = .const (mField d) ∧ kField d = 0 := by
  unfold decodeConst at h
  split at h
  · cases h
  cases h
  exact ⟨rfl, not_not.mp ‹_›⟩

theorem eq_of_decodeScale_ok {d : Word} {i : Instr} (h : decodeScale d = .ok i) :
    kField d = 0 ∧ (i = .scaleu ∧ mField d = 0 ∨ i = .scaled ∧ mField d = 1) := by
  unfold decodeScale at h
  split at h
  · cases h
  refine ⟨not_not.mp ‹_›, ?_⟩
  split at h
  · cases h; exact .inl ⟨rfl, ‹_›⟩
  split at h
  · cases h; exact .inr ⟨rfl, ‹_›⟩
  · cases h

/-- The K code names the kind it stands for (R10). -/
theorem kindCode_of_kindOfCode {n : Nat} {k : Kind} (h : kindOfCode n = some k) : n = kindCode k := by
  unfold kindOfCode at h
  split at h <;> cases h <;> rfl

theorem eq_of_decodeKinded_ok {d : Word} {f : Kind → Instr} {i : Instr} (h : decodeKinded d f = .ok i) :
    ∃ k, i = f k ∧ kField d = kindCode k ∧ mField d = 0 := by
  unfold decodeKinded at h
  split at h
  · cases h
  next k hk =>
    split at h
    · cases h
    cases h
    exact ⟨k, rfl, kindCode_of_kindOfCode hk, not_not.mp ‹_›⟩

theorem eq_of_decodeJoin_ok {d : Word} {i : Instr} (h : decodeJoin d = .ok i) :
    ∃ k, kField d = kindCode k ∧ (i = .join k ∧ mField d = 0 ∨ i = .joinn k ∧ mField d = 1) := by
  unfold decodeJoin at h
  split at h
  · cases h
  next k hk =>
    refine ⟨k, kindCode_of_kindOfCode hk, ?_⟩
    split at h
    · cases h; exact .inl ⟨rfl, ‹_›⟩
    split at h
    · cases h; exact .inr ⟨rfl, ‹_›⟩
    · cases h

/-! ## Words and fields -/

/-- A word whose reserved bits are 0 is the word of its own three fields (R80). -/
theorem commandWord_of_fields {d : Word} (hz : zField d = 0) :
    commandWord (opField d) (kField d) (mField d).toNat = d := by
  apply BitVec.eq_of_toNat_eq
  simp only [zField, opField, kField, mField, commandWord, BitVec.toNat_ofNat, BitVec.extractLsb'_toNat,
    Nat.shiftRight_eq_div_pow] at hz ⊢
  omega

/-- The word of a command is the word it was decoded from: no two words share a meaning (R84). -/
theorem encode_of_decode_ok {d : Word} {i : Instr} (h : decode d = .ok i) : encode i = d := by
  unfold decode at h
  split at h
  · cases h
  have hword := commandWord_of_fields (not_not.mp ‹_›)
  split at h
  case h_44 => cases h
  all_goals
    rename_i hop
    rw [hop] at hword
  -- CONST, JOIN and JOINN, SCALEU and SCALED have rows of their own; then the rows with a kind, then the fixed rows
  case h_3 =>
    obtain ⟨rfl, hk⟩ := eq_of_decodeConst_ok h
    rwa [hk] at hword
  case h_6 =>
    obtain ⟨k, hk, ⟨rfl, hm⟩ | ⟨rfl, hm⟩⟩ := eq_of_decodeJoin_ok h <;> rwa [hk, hm] at hword
  case h_43 =>
    obtain ⟨hk, ⟨rfl, hm⟩ | ⟨rfl, hm⟩⟩ := eq_of_decodeScale_ok h <;> rwa [hk, hm] at hword
  case h_5 | h_9 | h_10 | h_11 | h_12 | h_13 | h_14 =>
    obtain ⟨k, rfl, hk, hm⟩ := eq_of_decodeKinded_ok h
    rwa [hk, hm] at hword
  all_goals
    obtain ⟨rfl, hk, hm⟩ := eq_of_decodeFixed_ok h
    rwa [hk, hm] at hword

open Laws in
/-- The word of every command meets R83. -/
theorem legalWord_encode : ∀ i : Instr, legalWord (encode i) = true
  | .nop => EncodedLegal.nop | .clrf => EncodedLegal.clrf | .const m => EncodedLegal.const m
  | .ctab => EncodedLegal.ctab | .split k => EncodedLegal.split k | .join k => EncodedLegal.join k
  | .joinn k => EncodedLegal.joinn k | .tobin => EncodedLegal.tobin | .todec => EncodedLegal.todec
  | .presc k => EncodedLegal.presc k | .fixsc k => EncodedLegal.fixsc k | .mul k => EncodedLegal.mul k
  | .mulov k => EncodedLegal.mulov k | .div k => EncodedLegal.div k | .divov k => EncodedLegal.divov k
  | .add => EncodedLegal.add | .addov => EncodedLegal.addov | .sub => EncodedLegal.sub
  | .subov => EncodedLegal.subov | .adds => EncodedLegal.adds | .subs => EncodedLegal.subs
  | .pow => EncodedLegal.pow | .powov => EncodedLegal.powov | .sin => EncodedLegal.sin
  | .cos => EncodedLegal.cos | .sincos => EncodedLegal.sincos | .tan => EncodedLegal.tan
  | .asin => EncodedLegal.asin | .acos => EncodedLegal.acos | .atan => EncodedLegal.atan
  | .atan2 => EncodedLegal.atan2 | .ln => EncodedLegal.ln | .logb => EncodedLegal.logb
  | .log10 => EncodedLegal.log10 | .exp => EncodedLegal.exp | .root => EncodedLegal.root
  | .sqrt => EncodedLegal.sqrt | .rootov => EncodedLegal.rootov | .fact => EncodedLegal.fact
  | .d2r => EncodedLegal.d2r | .r2d => EncodedLegal.r2d | .gcd => EncodedLegal.gcd
  | .ratio => EncodedLegal.ratio | .scaleu => EncodedLegal.scaleu | .scaled => EncodedLegal.scaled

/-- The decoder accepts legal words only (R83). -/
theorem legalWord_of_decode_ok {d : Word} {i : Instr} (h : decode d = .ok i) : legalWord d = true :=
  encode_of_decode_ok h ▸ legalWord_encode i

/-- The decoder rejects every illegal word (R85). -/
theorem decode_error_of_illegal {d : Word} (h : legalWord d = false) : ∃ why, decode d = .error why := by
  rcases hd : decode d with why | i
  · exact ⟨why, rfl⟩
  · exact absurd (legalWord_of_decode_ok hd) (by simp [h])

end Sys2Proof
end

section
/-! PROOFS. The port (20_memory.md R61, R62, R74): what a host read returns, what a host write does at each address, and
that no access ever stops the unit. -/

namespace Sys2Proof.Machine

/-- The `CONFIG` word of each build (R45). -/
theorem configWord_cases :
    configWord .dec = 0x01F0 ∧ configWord .binQ510 = 0x01E1 ∧ configWord .binQ69 = 0x01E3 :=
  ⟨rfl, rfl, rfl⟩

/-- Settles O8: the word is the one `hostRead` finds at the address. -/
theorem hostReadReturnsTheAddressedWord : Obligations.HostReadReturnsTheAddressedWord := by
  intro s addr rest h
  obtain ⟨hA, hB, hR, hRH, hCmd, hStatus, hConfig, hUnused⟩ := hostRead_cases s
  refine ⟨s.hostRead addr, step_read h, ?_, ?_, ?_, ?_, ?_, ?_, ?_⟩
  · rintro rfl; exact hA
  · rintro rfl; exact hB
  · rintro rfl; exact hR
  · rintro rfl; exact hRH
  · rintro (rfl | rfl)
    · exact hCmd
    · exact hUnused
  · rintro rfl
    rw [hStatus, statusWord_toNat]
  · rintro rfl
    obtain ⟨hdec, hq510, hq69⟩ := configWord_cases
    rw [hConfig]
    cases s.build
    · exact hdec
    · exact hq510
    · exact hq69

/-- An illegal word written to `CMD` records `ILLCMD` (R85, R90). -/
theorem step_illegalWord {s : State} {d : Word} {rest : List Access} (h : s.requests = .write cmdAddr d :: rest)
    (hd : legalWord d = false) : step s = .next (afterFault { s with requests := rest } 3) := by
  obtain ⟨why, hwhy⟩ := decode_error_of_illegal hd
  rw [step_illegal h hwhy, raise_eq_afterFault]
  rfl

/-- Settles O9: at `CMD` the word is executed or rejected, elsewhere the step is `hostStore`. -/
theorem hostWriteActsByAddress : Obligations.HostWriteActsByAddress := by
  intro s addr d rest h
  obtain ⟨hA, hB, hR, hRH, hStatus, hConfig, hUnused⟩ := hostStore_cases { s with requests := rest } d
  refine ⟨?_, ?_, ?_, ?_, ?_, ?_, ?_, ?_⟩
  · rintro rfl; rw [step_store h (by decide), hA]
  · rintro rfl; rw [step_store h (by decide), hB]
  · rintro rfl; rw [step_store h (by decide), hR]
  · rintro rfl; rw [step_store h (by decide), hRH]
  · rintro rfl i hi; exact step_command h hi
  · rintro rfl hd; exact step_illegalWord h hd
  · rintro rfl; rw [step_store h (by decide), hStatus, writeStatus_frame]
  · rintro (rfl | rfl)
    · rw [step_store h (by decide), hConfig]
    · rw [step_store h (by decide), hUnused]

/-- Every step answers a next state, takes one access off the queue and keeps the build (R52, R74, R90). -/
theorem step_completes (s : State) : ∃ t, step s = .next t ∧ t.requests = s.requests.tail ∧ t.build = s.build := by
  obtain ⟨hreq, hstep⟩ | ⟨addr, rest, hreq, hstep⟩ | ⟨rest, hreq, hstep⟩ | ⟨addr, d, rest, hreq, -, hstep⟩ |
    ⟨d, why, rest, hreq, -, hstep⟩ | ⟨d, i, rest, hreq, -, hstep⟩ := step_cases s <;> rw [hstep, hreq]
  · exact ⟨s, rfl, hreq, rfl⟩
  · exact ⟨_, rfl, rfl, rfl⟩
  · exact ⟨_, rfl, rfl, rfl⟩
  · obtain ⟨-, -, hbuild, hqueue, -⟩ := hostStore_frame { s with requests := rest } addr d
    exact ⟨_, rfl, hqueue, hbuild⟩
  · exact ⟨_, rfl, rfl, rfl⟩
  · obtain ⟨t, hexec, -, -, hbuild, hqueue, -⟩ := commandsWriteOnlyTheirTableRow i { s with requests := rest }
    exact ⟨t, hexec, hqueue, hbuild⟩

/-- A run goes on from the state its first step leaves. -/
theorem run_succ_of_step {s t : State} (h : step s = .next t) (n : Nat) :
    Host.Core.run core (n + 1) s = Host.Core.run core n t := by
  have hcore : core.step s = .next t := h
  simp only [Host.Core.run, hcore]

/-- No run stops, since no step does (R74). -/
theorem runsForever (s : State) : RunsForever s := by
  intro n
  induction n generalizing s with
  | zero => exact ⟨s, rfl⟩
  | succ n ih =>
    obtain ⟨t, hstep, -⟩ := step_completes s
    rw [run_succ_of_step hstep]
    exact ih t

/-- Settles O11: by `step_completes`, and `runsForever` for the runs. -/
theorem everyAccessCompletes : Obligations.EveryAccessCompletes :=
  ⟨step_completes, fun _ => step_idle, runsForever⟩

end Sys2Proof.Machine
end

section
/-! PROOFS. The decoder, the encoder and the legal words (30_encoding.md R83, R84, R86): decoding undoes encoding, and the
words of the opcode map's rows, 78 in all, are those the decoder accepts and those that meet R83. -/

namespace Sys2Proof

/-! ## Decoding undoes encoding -/

/-- Each command's word is read back as that command: the word is concrete once its kind or its index is (R84). -/
theorem decode_encode : ∀ i : Instr, decode (encode i) = .ok i
  -- rows without a kind
  | .nop | .clrf | .ctab | .tobin | .todec | .add | .addov | .sub | .subov | .adds | .subs | .pow | .powov | .sin | .cos
  | .sincos | .tan | .asin | .acos | .atan | .atan2 | .ln | .logb | .log10 | .exp | .root | .sqrt | .rootov | .fact
  | .d2r | .r2d | .gcd | .ratio | .scaleu | .scaled => rfl
  -- rows with a kind
  | .split k | .join k | .joinn k | .presc k | .fixsc k | .mul k | .mulov k | .div k | .divov k => by cases k <;> rfl
  -- the row with an index
  | .const m => by revert m; decide

/-- Settles O1, constructor by constructor. -/
theorem decodeOfEncodeIsTheInstruction : Obligations.DecodeOfEncodeIsTheInstruction :=
  decode_encode

/-- Settles O2: the fields of an accepted word are those of its row. -/
theorem encodeOfDecodeIsTheWord : Obligations.EncodeOfDecodeIsTheWord :=
  fun _ _ hd => encode_of_decode_ok hd

/-! ## The words of the opcode map -/

/-- The words of one row of the opcode map: every allowed K with every allowed M (R84). -/
def OpcodeRow.words (row : OpcodeRow) : List Word :=
  row.kinds.flatMap fun k => row.modifiers.map fun m => commandWord row.op k m

/-- The words of all rows of the opcode map (R84). -/
def tableWords : List Word := opcodeRows.flatMap OpcodeRow.words

theorem mem_tableWords {d : Word} :
    d ∈ tableWords ↔
      ∃ row ∈ opcodeRows, ∃ k ∈ row.kinds, ∃ m ∈ row.modifiers, commandWord row.op k m = d := by
  simp only [tableWords, OpcodeRow.words, List.mem_flatMap, List.mem_map]

@[simp] theorem CommandFields.ofWord_op_toNat (d : Word) : (ofWord d).op.toNat = opField d := rfl
@[simp] theorem CommandFields.ofWord_k_toNat (d : Word) : (ofWord d).k.toNat = kField d := rfl
@[simp] theorem CommandFields.ofWord_m (d : Word) : (ofWord d).m = mField d := rfl

/-- What R83 asks of a word, in terms of the row its opcode lists. -/
theorem exists_row_of_legalWord {d : Word} (h : legalWord d = true) :
    zField d = 0 ∧
      ∃ row ∈ opcodeRows, row.op = opField d ∧ kField d ∈ row.kinds ∧ (mField d).toNat ∈ row.modifiers := by
  simp only [legalWord, CommandFields.wellFormed, Bool.and_eq_true] at h
  obtain ⟨⟨⟨hz, hlisted⟩, hkind⟩, hmodifier⟩ := h
  obtain ⟨row, hrow, hop⟩ := List.any_eq_true.mp hlisted
  have hk := List.all_eq_true.mp hkind row hrow
  have hm := List.all_eq_true.mp hmodifier row hrow
  simp only [beq_iff_eq, CommandFields.ofWord_op_toNat] at hop
  refine ⟨congrArg BitVec.toNat (beq_iff_eq.mp hz), row, hrow, hop, ?_, ?_⟩
  · simpa [hop] using hk
  · simpa [hop] using hm

/-- A word that meets R83 is a word of its opcode's row. -/
theorem mem_tableWords_of_legalWord {d : Word} (h : legalWord d = true) : d ∈ tableWords := by
  obtain ⟨hz, row, hrow, hop, hk, hm⟩ := exists_row_of_legalWord h
  exact mem_tableWords.mpr ⟨row, hrow, _, hk, _, hm, hop ▸ commandWord_of_fields hz⟩

/-- The decoder run on each of the map's words. -/
theorem tableWords_accepted : tableWords.all (fun d => (decode d).isOk) = true := rfl

/-- The decoder accepts every word of the opcode map. -/
theorem decode_ok_of_mem_tableWords {d : Word} (h : d ∈ tableWords) : ∃ i, decode d = .ok i := by
  have haccepted := List.all_eq_true.mp tableWords_accepted d h
  rcases hd : decode d with why | i
  · rw [hd] at haccepted
    cases haccepted
  · exact ⟨i, rfl⟩

/-- The words of the opcode map are exactly the legal ones (R83, R84). -/
theorem mem_tableWords_iff_legalWord (d : Word) : d ∈ tableWords ↔ legalWord d = true := by
  constructor
  · intro h
    obtain ⟨i, hd⟩ := decode_ok_of_mem_tableWords h
    exact legalWord_of_decode_ok hd
  · exact mem_tableWords_of_legalWord

/-- Settles O3: an accepted word is legal, a legal word is in the opcode map, and the decoder accepts the map's words. -/
theorem decodeAcceptsExactlyTheLegalWords : Obligations.DecodeAcceptsExactlyTheLegalWords := by
  intro d
  constructor
  · rintro ⟨i, hd⟩
    exact legalWord_of_decode_ok hd
  · intro h
    exact decode_ok_of_mem_tableWords (mem_tableWords_of_legalWord h)

/-- No two rows and no two field values share a word. -/
theorem tableWords_nodup : tableWords.Nodup := by decide

theorem tableWords_length : tableWords.length = 78 := rfl

/-- Settles O4: the list is the words of the opcode map. -/
theorem legalWordsNumberSeventyEight : Obligations.LegalWordsNumberSeventyEight :=
  ⟨tableWords, tableWords_nodup, tableWords_length, mem_tableWords_iff_legalWord⟩

/-- Settles O5: the decoder is run on each word. -/
theorem sampleWordsDecodeAsTheTableSays : Obligations.SampleWordsDecodeAsTheTableSays :=
  ⟨rfl, rfl, rfl, rfl, rfl, rfl, rfl, rfl, rfl, rfl, rfl⟩

end Sys2Proof
end

section
/-! PROOFS. A word written to `CMD` (30_encoding.md R85, R90, R91), and the faults of the commands (60_exceptions.md
R252, R254). -/

namespace Sys2Proof.Machine

/-- Settles O6: address 4 is `CMD`, where a legal word is executed. -/
theorem stepRunsTheDecodedCommand : Obligations.StepRunsTheDecodedCommand :=
  fun _ _ _ _ hreq hd => step_command hreq hd

/-- Settles O7: the decoder rejects an illegal word, and the port records `ILLCMD`. -/
theorem illegalWordRecordsIllcmdOnly : Obligations.IllegalWordRecordsIllcmdOnly :=
  fun _ _ _ hreq hd => step_illegalWord hreq hd

/-- Clearing `PV` changes nothing a row of the opcode map reads. -/
@[simp] theorem State.takeReads_clearPv (s : State) (e : Effects) :
    ({ s with pv := false } : State).takeReads e s = { s with pv := false } :=
  State.takeReads_eq_self rfl (fun _ => rfl) (fun _ => rfl) (fun _ => rfl)

/-- Settles O16: no row reads `PV`, so the run with `PV` = 0 and the run from the state itself both fault, with one cause
of the row, or both write only the row's columns. -/
theorem faultingCommandsWriteOnlyTheFaultRecord : Obligations.FaultingCommandsWriteOnlyTheFaultRecord := by
  intro i s hi
  obtain ⟨c, hc, h⟩ | ⟨t, h⟩ := exec_followsRow i hi s
  · exact ⟨afterFault s c.code, afterFault { s with pv := false } c.code,
      by simpa using h s, by simpa using h { s with pv := false }, .inl ⟨rfl, c, hc, rfl, rfl⟩⟩
  · exact ⟨s.takeWrites (effects i) t, ({ s with pv := false } : State).takeWrites (effects i) t,
      by simpa using h s, by simpa using h { s with pv := false }, .inr ⟨rfl, rfl, rfl⟩⟩

end Sys2Proof.Machine
end

section
/-! PROOFS. The system commands (40_system.md R100 to R103): NOP and CLRF, and the two that read constant data into the
pair `{RH, R}`. All the data fits 32 bits, so the pair holds it exactly. -/

namespace Sys2Proof.Machine

/-! ## 32-bit data in the pair -/

/-- `v` fits the pair `{RH, R}` read as 32-bit two's complement (R15, R34). -/
abbrev FitsPair (v : Int) : Prop := -2147483648 ≤ v ∧ v ≤ 2147483647

/-- A write of the pair changes `R` and `RH` only, and leaves the value itself there when it fits (R34). -/
theorem exists_setPair_eq (s : State) {v : Int} (hv : FitsPair v) :
    ∃ lo hi : Word, s.setPair v = { s with r := lo, rh := hi } ∧ (hi ++ lo).toInt = v := by
  obtain ⟨hlow, hhigh⟩ := hv
  exact ⟨_, _, setPair_eq s v, setPair_value s hlow hhigh⟩

/-- An entry of a list of 32-bit values fits, and so does the default 0 after its end. -/
theorem fitsPair_getD {vs : List Int} (h : ∀ v ∈ vs, FitsPair v) (i : Nat) : FitsPair (vs.getD i 0) := by
  rcases lt_or_ge i vs.length with hi | hi
  · rw [List.getD_eq_getElem vs 0 hi]
    exact h _ (List.getElem_mem hi)
  · rw [List.getD_eq_default vs 0 hi]
    decide

theorem printedConstants_fit (bd : Build) : ∀ v ∈ printedConstants bd, FitsPair v := by cases bd <;> decide
theorem printedTable_fit (bd : Build) : ∀ v ∈ printedTable bd, FitsPair v := by cases bd <;> decide
theorem printedTable_length (bd : Build) : (printedTable bd).length = cordicN bd := by cases bd <;> rfl

/-! ## The commands' meanings, in terms of the printed data -/

theorem exec_nop (s : State) : exec .nop s = .next s := rfl

/-- CONST writes the table's entry to the pair (R102). -/
theorem exec_const (m : BitVec 4) (s : State) :
    exec (.const m) s = .next (s.setPair ((printedConstants s.build).getD m.toNat 0)) := by
  rw [← constVal_eq_printed]
  rfl

/-- CTAB is one choice: `DOMAIN` outside the table, the entry to the pair inside (R103). -/
theorem exec_ctab (s : State) :
    exec .ctab s =
      if s.a.toInt < 0 ∨ (printedTable s.build).length ≤ s.a.toInt then .next (afterFault s 2)
      else .next (s.setPair ((printedTable s.build).getD s.a.toInt.toNat 0)) := by
  have hfault : faultNext .domain s = .next (afterFault s 2) := faultNext_eq s .domain
  rw [← hfault, printedTable_length, ← cordicTable_eq_printed]
  rfl

/-! ## The statements -/

/-- Settles O19: every constant fits the pair. -/
theorem constReadsTheLibraryConstant : Obligations.ConstReadsTheLibraryConstant := by
  intro m s
  obtain ⟨lo, hi, hpair, hvalue⟩ := exists_setPair_eq s (fitsPair_getD (printedConstants_fit s.build) m.toNat)
  exact ⟨lo, hi, by rw [exec_const, hpair], hvalue⟩

/-- Settles O21: every table entry fits the pair, and the two ranges of the index are the two branches of `exec_ctab`. -/
theorem ctabReadsATableEntryOrFaults : Obligations.CtabReadsATableEntryOrFaults := by
  intro s
  constructor
  · rintro ⟨hnonneg, hlt⟩
    obtain ⟨lo, hi, hpair, hvalue⟩ :=
      exists_setPair_eq s (fitsPair_getD (printedTable_fit s.build) s.a.toInt.toNat)
    exact ⟨lo, hi, by rw [exec_ctab, if_neg (by omega), hpair], hvalue⟩
  · intro houtside
    rw [exec_ctab, if_pos houtside]

/-- Settles O18: NOP answers its own state, CLRF the state with the flags cleared. -/
theorem nopChangesNothingAndClrfClearsTheFlags : Obligations.NopChangesNothingAndClrfClearsTheFlags :=
  fun s => ⟨exec_nop s, exec_clrf s⟩

end Sys2Proof.Machine
end

section
/-! PROOFS. The Q-format scaling commands (41_scaling.md R110 to R116): decoding into whole part and fraction, encoding
them again, the two resolutions, the widen and narrow boundary, and the round trips between each pair. The round trips
use only the statements about the single commands. -/

namespace Sys2Proof.Machine

/-! ## Reading a result back -/

/-- A value in the 16-bit range is what its pattern reads as (R15). -/
theorem toInt_of_isPattern {w : Word} {v : Int} (h : IsPattern w v) (hv : ¬ OutOfRange v) : w.toInt = v := by
  rw [← wrap16_eq_of_isPattern h]
  exact s16_wrap16_of_fits hv

/-- A register's own value always fits, so its pattern is the register. -/
theorem eq_of_isPattern_toInt {w a : Word} (h : IsPattern w a.toInt) : w = a :=
  (wrap16_eq_of_isPattern h).symm.trans (wrap16_s16 a)

theorem decide_outOfRange_toInt (a : Word) : decide (OutOfRange a.toInt) = false :=
  decide_eq_false (not_outOfRange_s16 a)

/-- The pattern of an unsigned 16-bit value, read as unsigned, is the value (R15). -/
theorem toNat_wrap16 {v : Int} (hnonneg : 0 ≤ v) (hlt : v < 65536) : ((wrap16 v).toNat : Int) = v := by
  simp only [wrap16, BitVec.toNat_ofInt]
  omega

/-! ## The commands' meanings -/

/-- SPLIT divides the magnitude and puts the operand's sign on the whole part (R110). -/
theorem exec_split (k : Kind) (s : State) :
    exec (.split k) s = .next { s with
      r := wrap16 ((if s.a.toInt < 0 then -1 else 1) * (|s.a.toInt| / scale s.build k))
      rh := wrap16 (|s.a.toInt| % scale s.build k)
      neg := decide (s.a.toInt < 0) } := by
  have hsign (w : Int) : (if s.a.toInt < 0 then -w else w) = (if s.a.toInt < 0 then -1 else 1) * w := by
    split <;> simp
  rw [← hsign, ← Int.natCast_natAbs]
  rfl

theorem faultNext_domain (s : State) : faultNext .domain s = .next (afterFault s 2) := faultNext_eq s .domain

/-- The value JOIN and JOINN form, with the sign as a factor (R111). -/
theorem joinValue_eq (bd : Build) (k : Kind) (negative : Bool) (a b : Int) :
    joinValue bd k negative a b = (if negative then -1 else 1) * (|a| * scale bd k + b) := by
  cases negative <;> simp [joinValue]

/-- JOIN is one choice: `DOMAIN` when the second operand is no fraction, else the value with the first's sign (R111). -/
theorem exec_join (k : Kind) (s : State) :
    exec (.join k) s =
      if s.b.toInt < 0 ∨ scale s.build k ≤ s.b.toInt then .next (afterFault s 2)
      else .next (s.setResultOvf
        ((if s.a.toInt < 0 then -1 else 1) * (|s.a.toInt| * scale s.build k + s.b.toInt))) := by
  have hvalue : joinValue s.build k (decide (s.a.toInt < 0)) s.a.toInt s.b.toInt =
      (if s.a.toInt < 0 then -1 else 1) * (|s.a.toInt| * scale s.build k + s.b.toInt) := by simp [joinValue_eq]
  rw [← faultNext_domain, ← hvalue]
  rfl

/-- JOINN is the same choice with the value forced negative (R111). -/
theorem exec_joinn (k : Kind) (s : State) :
    exec (.joinn k) s =
      if s.b.toInt < 0 ∨ scale s.build k ≤ s.b.toInt then .next (afterFault s 2)
      else .next (s.setResultOvf (-(|s.a.toInt| * scale s.build k + s.b.toInt))) := by
  have hvalue : joinValue s.build k true s.a.toInt s.b.toInt =
      -(|s.a.toInt| * scale s.build k + s.b.toInt) := by simp [joinValue_eq]
  rw [← faultNext_domain, ← hvalue]
  rfl

theorem exec_tobin (s : State) : exec .tobin s = .next (s.setResultOvf ((s.a.toInt * 128 + 50) / 100)) := rfl

theorem exec_todec (s : State) : exec .todec s = .next (s.setR (wrap16 (asr (s.a.toInt * 100 + 64) 7))) := rfl

theorem exec_presc (k : Kind) (s : State) :
    exec (.presc k) s = .next (s.setPair (s.a.toInt * scale s.build k)) := rfl

theorem exec_fixsc (k : Kind) (s : State) :
    exec (.fixsc k) s = .next (s.setResultOvf (rdiv (s.b ++ s.a).toInt (scale s.build k))) := rfl

/-! ## Decoding and encoding -/

/-- Settles O23: the magnitude is whole part times scale plus fraction, and neither half wraps, since the whole part is
no further from 0 than the operand and a fraction is below 1024. -/
theorem splitGivesWholeFractionAndSign : Obligations.SplitGivesWholeFractionAndSign := by
  intro k s
  have hpos := scale_pos s.build k
  have hscale := scale_le s.build k
  have hrange : -32768 ≤ s.a.toInt ∧ s.a.toInt ≤ 32767 := s16_range s.a
  have hdiv := Int.ediv_mul_add_emod |s.a.toInt| (scale s.build k)
  have hwhole : 0 ≤ |s.a.toInt| / scale s.build k := Int.ediv_nonneg (abs_nonneg _) hpos.le
  have hwhole_le : |s.a.toInt| / scale s.build k ≤ |s.a.toInt| := Int.ediv_le_self _ (abs_nonneg _)
  have hfrac := Int.emod_nonneg |s.a.toInt| hpos.ne'
  have hfrac_lt := Int.emod_lt_of_pos |s.a.toInt| hpos
  refine ⟨_, _, exec_split k s, ?_⟩
  rw [toNat_wrap16 hfrac (by omega)]
  rcases lt_or_ge s.a.toInt 0 with hneg | hnonneg
  · have habs := abs_of_neg hneg
    rw [if_pos hneg, toInt_of_isPattern (isPattern_wrap16 _) (by unfold OutOfRange; omega)]
    simp only [neg_one_mul, abs_neg, abs_of_nonneg hwhole]
    omega
  · have habs := abs_of_nonneg hnonneg
    rw [if_neg hnonneg.not_gt, toInt_of_isPattern (isPattern_wrap16 _) (by unfold OutOfRange; omega)]
    simp only [one_mul, abs_of_nonneg hwhole]
    omega

/-- Settles O24: whether the second operand is a fraction decides the two branches of both commands. -/
theorem joinAndJoinnEncode : Obligations.JoinAndJoinnEncode := by
  intro k s
  simp only [exec_join, exec_joinn]
  constructor
  · rintro ⟨hnonneg, hlt⟩
    have hfraction : ¬ (s.b.toInt < 0 ∨ scale s.build k ≤ s.b.toInt) := by omega
    simp only [if_neg hfraction, setResultOvf_eq]
    exact ⟨_, _, _, _, rfl, rfl, isPattern_wrap16 _, isPattern_wrap16 _, rfl, rfl⟩
  · intro houtside
    exact ⟨if_pos houtside, if_pos houtside⟩

/-! ## The two resolutions -/

/-- Settles O25: both results are floors of the biased quotient; TODEC's never leaves the 16-bit range. -/
theorem tobinAndTodecRoundHalfUp : Obligations.TobinAndTodecRoundHalfUp := by
  intro s
  have hrange : -32768 ≤ s.a.toInt ∧ s.a.toInt ≤ 32767 := s16_range s.a
  constructor
  · refine ⟨(s.a.toInt * 128 + 50) / 100, _, by omega, by omega, isPattern_wrap16 _, ?_, ?_⟩
    · unfold OutOfRange
      omega
    · rw [exec_tobin, setResultOvf_eq]
  · obtain ⟨hle, hlt⟩ := asr_floor (s.a.toInt * 100 + 64) 7
    refine ⟨_, ?_, ?_, exec_todec s⟩ <;>
      rw [toInt_of_isPattern (isPattern_wrap16 _) (by unfold OutOfRange; omega)] <;> omega

/-- Settles O26: the two floors bound the composed result from both sides, and the second step stays in range. -/
theorem resolutionRoundTrips : Obligations.ResolutionRoundTrips := by
  intro s
  have hrange : -32768 ≤ s.a.toInt ∧ s.a.toInt ≤ 32767 := s16_range s.a
  constructor
  · intro hfits
    obtain ⟨v, w, hvle, hvlt, hw, hout, htobin⟩ := (tobinAndTodecRoundHalfUp s).1
    obtain ⟨u, hule, hult, htodec⟩ :=
      (tobinAndTodecRoundHalfUp { s with a := w, r := w, ovf := decide (OutOfRange v) }).2
    refine ⟨_, _, htobin, htodec, BitVec.eq_of_toInt_eq ?_⟩
    have hwv : w.toInt = v := toInt_of_isPattern hw (by omega)
    simp only at hule hult ⊢
    omega
  · obtain ⟨w, hwle, hwlt, htodec⟩ := (tobinAndTodecRoundHalfUp s).2
    obtain ⟨v, u, hvle, hvlt, hu, hout, htobin⟩ := (tobinAndTodecRoundHalfUp { s with a := w, r := w }).1
    simp only at hvle hvlt hout
    have hfits : ¬ OutOfRange v := by omega
    refine ⟨_, _, htodec, htobin, decide_eq_false hfits, ?_⟩
    simp only [toInt_of_isPattern hu hfits]
    rw [abs_le]
    omega

/-! ## The widen and narrow boundary -/

/-- Settles O27: the product fits 32 bits, and `rdiv` rounds to nearest. -/
theorem prescWidensAndFixscNarrows : Obligations.PrescWidensAndFixscNarrows := by
  intro k s
  have hpos := scale_pos s.build k
  constructor
  · have hfits : FitsPair (s.a.toInt * scale s.build k) := by
      obtain ⟨hlow, hhigh⟩ := s16_range s.a
      have hscale := scale_le s.build k
      unfold s16 at hlow hhigh
      constructor <;> nlinarith
    obtain ⟨lo, hi, hpair, hvalue⟩ := exists_setPair_eq s hfits
    exact ⟨lo, hi, by rw [exec_presc, hpair], hvalue⟩
  · exact ⟨_, _, rdiv_isNearest _ hpos, isPattern_wrap16 _, by rw [exec_fixsc, setResultOvf_eq]⟩

/-! ## Encoding undoes decoding -/

/-- JOIN or JOINN, by `NEG`, undoes SPLIT (R111 (4)): SPLIT's fraction is one, and the value formed is the operand. -/
theorem join_undoes_split (k : Kind) (s : State) :
    ∃ t u : State, exec (.split k) s = .next t ∧
      exec (if t.neg = true then .joinn k else .join k) { t with a := t.r, b := t.rh } = .next u ∧
      u.r = s.a ∧ u.ovf = false := by
  obtain ⟨w, f, hsplit, hlt, hvalue, hnonneg, -⟩ := splitGivesWholeFractionAndSign k s
  have hfrac : f.toInt = f.toNat := BitVec.toInt_eq_toNat_of_lt (by have := scale_le s.build k; omega)
  rw [← hfrac] at hlt hvalue
  obtain ⟨v, v', x, y, hx, hy, hv, hv', hjoin, hjoinn⟩ :=
    (joinAndJoinnEncode k { s with a := w, b := f, r := w, rh := f, neg := decide (s.a.toInt < 0) }).1
      ⟨by simp [hfrac], hlt⟩
  simp only at hx hy
  rcases lt_or_ge s.a.toInt 0 with hs | hs
  · have hchoice : (if decide (s.a.toInt < 0) = true then Instr.joinn k else .join k) = .joinn k :=
      if_pos (decide_eq_true hs)
    rw [← hchoice] at hjoinn
    obtain rfl : y = s.a.toInt := by rw [hy, hvalue, if_pos hs, neg_one_mul]
    exact ⟨_, _, hsplit, hjoinn, eq_of_isPattern_toInt hv', decide_outOfRange_toInt s.a⟩
  · have hchoice : (if decide (s.a.toInt < 0) = true then Instr.joinn k else .join k) = .join k :=
      if_neg (by simpa using hs)
    rw [← hchoice] at hjoin
    obtain rfl : x = s.a.toInt := by rw [hx, hvalue, if_neg hs.not_gt, if_neg (hnonneg hs).not_gt]
    exact ⟨_, _, hsplit, hjoin, eq_of_isPattern_toInt hv, decide_outOfRange_toInt s.a⟩

/-- FIXSC undoes PRESC (R115 (2)): the nearest integer to an exact multiple of the scale is the factor. -/
theorem fixsc_undoes_presc (k : Kind) (s : State) :
    ∃ t u : State, exec (.presc k) s = .next t ∧ exec (.fixsc k) { t with a := t.r, b := t.rh } = .next u ∧
      u.r = s.a ∧ u.ovf = false := by
  obtain ⟨lo, hi, hpresc, hpair⟩ := (prescWidensAndFixscNarrows k s).1
  obtain ⟨q, w, hq, hw, hfixsc⟩ :=
    (prescWidensAndFixscNarrows k { s with a := lo, b := hi, r := lo, rh := hi }).2
  simp only [hpair] at hq
  have hself := rdiv_isNearest (s.a.toInt * scale s.build k) (scale_pos s.build k)
  rw [rdiv_mul_self _ (scale_pos s.build k)] at hself
  obtain rfl : q = s.a.toInt := isNearest_unique hq hself
  exact ⟨_, _, hpresc, hfixsc, eq_of_isPattern_toInt hw, decide_outOfRange_toInt s.a⟩

/-- Settles O28: the two round trips. -/
theorem encodersUndoTheDecoders : Obligations.EncodersUndoTheDecoders :=
  fun k s => ⟨join_undoes_split k s, fixsc_undoes_presc k s⟩

end Sys2Proof.Machine
end

section
/-! PROOFS. Overflow-checked arithmetic (42_arith.md R130 to R142). A predicate judges `R` against the exact value, so after
its command, which wraps that value into `R`, it reports exactly the overflow. POW and FACT are runs of narrowing steps: what
their flag says and what a run that stays exact gives is said once, for both. -/

namespace Sys2Proof.Machine

/-! ## Runs of narrowing steps (R141, R216) -/

/-- `n` narrowing steps from `v` with the flag clear, numbered from `i` on: step `j` narrows the exact value `g j acc`. -/
def narrowRun (g : Nat → Int → Int) (i : Nat) (v : Int) (n : Nat) : Running :=
  runAt (fun j p => p.narrow (g j p.acc)) i { acc := v, ov := false } n

@[simp] theorem narrowRun_zero (g : Nat → Int → Int) (i : Nat) (v : Int) :
    narrowRun g i v 0 = { acc := v, ov := false } := rfl

theorem narrowRun_succ (g : Nat → Int → Int) (i : Nat) (v : Int) (n : Nat) :
    narrowRun g i v (n + 1) = (narrowRun g i v n).narrow (g (i + n) (narrowRun g i v n).acc) :=
  runAt_succ _ i _ n

theorem narrowRun_ov_iff (g : Nat → Int → Int) (i : Nat) (v : Int) (n : Nat) :
    (narrowRun g i v n).ov = true ↔ ∃ j < n, OutOfRange (g (i + j) (narrowRun g i v j).acc) :=
  runAt_ov g i v n

/-- What one step of a run does: the exact value keeps its pattern and is narrowed into range. -/
theorem narrowRun_step (g : Nat → Int → Int) (i : Nat) (v : Int) (j : Nat) :
    (65536 : Int) ∣ g (i + j) (narrowRun g i v j).acc - (narrowRun g i v (j + 1)).acc ∧
      ¬ OutOfRange (narrowRun g i v (j + 1)).acc := by
  rw [narrowRun_succ]
  obtain ⟨hpattern, hfits, -⟩ := narrow_spec (narrowRun g i v j) (g (i + j) (narrowRun g i v j).acc)
  exact ⟨hpattern, hfits⟩

/-- A running product always fits a register when it starts so. -/
theorem narrowRun_acc_fits (g : Nat → Int → Int) (i : Nat) {v : Int} (hv : ¬ OutOfRange v) (n : Nat) :
    ¬ OutOfRange (narrowRun g i v n).acc := by
  cases n with
  | zero => exact hv
  | succ n => exact (narrowRun_step g i v n).2

theorem narrow_of_fits {p : Running} {q : Int} (hq : ¬ OutOfRange q) : p.narrow q = { acc := q, ov := p.ov } := by
  simp only [Running.narrow, s16_wrap16_of_fits hq, overflowed_eq, hq, decide_false, Bool.or_false]

/-- A run whose exact values `v 0`, `v 1`, … all fit takes exactly these values and leaves the flag clear. -/
theorem narrowRun_of_exact {g : Nat → Int → Int} {i : Nat} {v : Nat → Int} {n : Nat}
    (hstep : ∀ j < n, g (i + j) (v j) = v (j + 1)) (hfits : ∀ j < n, ¬ OutOfRange (v (j + 1))) :
    narrowRun g i (v 0) n = { acc := v n, ov := false } := by
  induction n with
  | zero => exact narrowRun_zero g i (v 0)
  | succ n ih =>
    have hrun := ih (fun j hj => hstep j (by omega)) (fun j hj => hfits j (by omega))
    rw [narrowRun_succ, hrun, hstep n n.lt_succ_self, narrow_of_fits (hfits n n.lt_succ_self)]

/-- The exact value of a step of POW, before it is narrowed (R141). -/
def powProduct (bd : Build) (a : Int) : Nat → Int → Int := fun _ acc => rdiv (acc * a) (sNum bd)

/-- The exact value of a step of FACT (R216). -/
def factProduct : Nat → Int → Int := fun j acc => acc * j

/-- A step of POW whose product is a multiple of the scale rounds nothing away. -/
theorem powProduct_of_exact {bd : Build} {a acc v : Int} (h : acc * a = v * sNum bd) (j : Nat) :
    powProduct bd a j acc = v := by
  rw [powProduct, h]
  exact rdiv_mul_self v (sNum_pos bd)

/-- POW's running product, for every exponent a register can hold. -/
theorem power_eq_narrowRun (bd : Build) (a : Int) {n : Nat} (hn : n ≤ 32767) :
    power bd a n = narrowRun (powProduct bd a) 0 (sNum bd) n :=
  power_eq bd a hn

/-- FACT's running product, for every operand a register can hold. -/
theorem factorial_eq_narrowRun (bd : Build) {n : Nat} (hn : n ≤ 32767) :
    factorial bd n = narrowRun factProduct 1 (sNum bd) n :=
  runHalves_eq_runPlain _ 15 1 n _ (by omega)

theorem sNum_cases (bd : Build) : sNum bd = 100 ∨ sNum bd = 128 := by cases bd <;> decide

theorem sNum_fits (bd : Build) : ¬ OutOfRange (sNum bd) := by
  have := sNum_cases bd
  unfold OutOfRange
  omega

/-- `power` is the run of R141, read as a relation. -/
theorem power_isPowerRun (bd : Build) (a : Int) {n : Nat} (hn : n ≤ 32767) :
    IsPowerRun bd a n (power bd a n).acc (power bd a n).ov := by
  rw [power_eq_narrowRun bd a hn]
  exact ⟨fun j => (narrowRun (powProduct bd a) 0 (sNum bd) j).acc, _, rfl,
    fun j _ => ⟨rdiv_isNearest _ (sNum_pos bd), narrowRun_step (powProduct bd a) 0 (sNum bd) j⟩, rfl,
    narrowRun_ov_iff (powProduct bd a) 0 (sNum bd) n⟩

/-- A power read back from `R` is the power, since it fits. -/
theorem toInt_wrap16_power (bd : Build) (a : Int) {n : Nat} (hn : n ≤ 32767) :
    (wrap16 (power bd a n).acc).toInt = (power bd a n).acc := by
  rw [power_eq_narrowRun bd a hn]
  exact s16_wrap16_of_fits (narrowRun_acc_fits _ 0 (sNum_fits bd) n)

theorem wrap16_toInt (w : Word) : wrap16 w.toInt = w := wrap16_s16 w

/-- A register's value, taken as a count, is one the loops serve. -/
theorem toNat_toInt_le (w : Word) : w.toInt.toNat ≤ 32767 := by
  have hrange : -32768 ≤ w.toInt ∧ w.toInt ≤ 32767 := s16_range w
  omega

/-! ## The commands' meanings -/

theorem faultNext_divzero (s : State) : faultNext .divzero s = .next (afterFault s 1) := faultNext_eq s .divzero

theorem exec_mul (k : Kind) (s : State) :
    exec (.mul k) s = .next (s.setR (wrap16 (rdiv (s.a.toInt * s.b.toInt) (scale s.build k)))) := rfl

theorem exec_mulov (k : Kind) (s : State) :
    exec (.mulov k) s = .next (s.judge (rdiv (s.a.toInt * s.b.toInt) (scale s.build k))) := rfl

/-- DIV is one choice: `DIVZERO` for a zero divisor, else the wrapped quotient (R133). -/
theorem exec_div (k : Kind) (s : State) :
    exec (.div k) s =
      if s.b.toInt = 0 then .next (afterFault s 1)
      else .next (s.setR (wrap16 (rdivs (s.a.toInt * scale s.build k) s.b.toInt))) := by
  rw [← faultNext_divzero]
  rfl

theorem exec_divov (k : Kind) (s : State) :
    exec (.divov k) s =
      if s.b.toInt = 0 then .next (s.setOvf true)
      else .next (s.judge (rdivs (s.a.toInt * scale s.build k) s.b.toInt)) := rfl

theorem exec_add (s : State) : exec .add s = .next (s.setR (wrap16 (s.a.toInt + s.b.toInt))) := rfl
theorem exec_addov (s : State) : exec .addov s = .next (s.judge (s.a.toInt + s.b.toInt)) := rfl
theorem exec_sub (s : State) : exec .sub s = .next (s.setR (wrap16 (s.a.toInt - s.b.toInt))) := rfl
theorem exec_subov (s : State) : exec .subov s = .next (s.judge (s.a.toInt - s.b.toInt)) := rfl

/-- ADDS writes the clamped sum and whether the sum was out of range (R139). -/
theorem exec_adds (s : State) :
    exec .adds s = .next { s with
      r := wrap16 (clamp16 (s.a.toInt + s.b.toInt))
      ovf := decide (OutOfRange (s.a.toInt + s.b.toInt)) } := by
  rw [← overflowed_eq]
  rfl

/-- SUBS does the same with the difference (R140). -/
theorem exec_subs (s : State) :
    exec .subs s = .next { s with
      r := wrap16 (clamp16 (s.a.toInt - s.b.toInt))
      ovf := decide (OutOfRange (s.a.toInt - s.b.toInt)) } := by
  rw [← overflowed_eq]
  rfl

/-- POW is one choice: `DOMAIN` for a negative exponent, else the power and its flag (R141). -/
theorem exec_pow (s : State) :
    exec .pow s =
      if s.b.toInt < 0 then .next (afterFault s 2)
      else .next { s with
        r := wrap16 (power s.build s.a.toInt s.b.toInt.toNat).acc
        ovf := (power s.build s.a.toInt s.b.toInt.toNat).ov } := by
  rw [← faultNext_domain]
  rfl

theorem exec_powov (s : State) :
    exec .powov s =
      if s.b.toInt < 0 then .next (s.setOvf true)
      else .next { s with
        ovf := ((power s.build s.a.toInt s.b.toInt.toNat).ov ||
          decide ((power s.build s.a.toInt s.b.toInt.toNat).acc ≠ s.r.toInt)) } := rfl

/-- FACT is one choice: `DOMAIN` for a negative operand, else the product and its flag (R216). -/
theorem exec_fact (s : State) :
    exec .fact s =
      if s.a.toInt < 0 then .next (afterFault s 2)
      else .next { s with
        r := wrap16 (factorial s.build s.a.toInt.toNat).acc
        ovf := (factorial s.build s.a.toInt.toNat).ov } := by
  rw [← faultNext_domain]
  rfl

/-! ## Product, quotient, sum and difference -/

/-- Judging an exact value right after its pattern was written to `R` reports whether it was out of range (R130). -/
theorem judge_setR_wrap16 (s : State) (q : Int) :
    (s.setR (wrap16 q)).judge q = { s.setR (wrap16 q) with ovf := decide (OutOfRange q) } := by
  rw [← mismatched_wrap16]
  rfl

/-- Settles O29: `rdiv` rounds to nearest. -/
theorem mulRoundsTheExactProduct : Obligations.MulRoundsTheExactProduct :=
  fun k s => ⟨_, _, rdiv_isNearest _ (scale_pos s.build k), isPattern_wrap16 _, exec_mul k s⟩

/-- Settles O30: MULOV judges the value MUL wraps. -/
theorem mulovReportsExactlyTheOverflow : Obligations.MulovReportsExactlyTheOverflow := by
  intro k s
  refine ⟨_, _, rdiv_isNearest _ (scale_pos s.build k), exec_mulov k s, exec_mul k s, ?_⟩
  rw [← judge_setR_wrap16]
  exact exec_mulov k _

/-- Settles O31: whether the divisor is 0 decides the two branches, and `rdivs` rounds to nearest. -/
theorem divRoundsTheQuotientOrFaults : Obligations.DivRoundsTheQuotientOrFaults := by
  intro k s
  constructor
  · intro hb
    exact ⟨_, _, rdivs_isNearest _ hb, isPattern_wrap16 _, (exec_div k s).trans (if_neg hb)⟩
  · intro hb
    exact (exec_div k s).trans (if_pos hb)

/-- Settles O32: DIVOV judges the value DIV wraps. -/
theorem divovJudgesTheQuotient : Obligations.DivovJudgesTheQuotient := by
  intro k s
  constructor
  · intro hb
    refine ⟨_, _, rdivs_isNearest _ hb, (exec_divov k s).trans (if_neg hb), (exec_div k s).trans (if_neg hb), ?_⟩
    rw [← judge_setR_wrap16]
    exact (exec_divov k _).trans (if_neg hb)
  · intro hb
    exact (exec_divov k s).trans (if_pos hb)

/-- Settles O33: both write the pattern of the exact value. -/
theorem addAndSubWrap : Obligations.AddAndSubWrap :=
  fun s => ⟨_, _, isPattern_wrap16 _, exec_add s, isPattern_wrap16 _, exec_sub s⟩

/-- Settles O34: ADDOV and SUBOV judge the values ADD and SUB wrap. -/
theorem addovAndSubovReportExactlyTheOverflow : Obligations.AddovAndSubovReportExactlyTheOverflow := by
  intro s
  refine ⟨_, _, exec_addov s, exec_subov s, exec_add s, ?_, exec_sub s, ?_⟩
  · rw [← judge_setR_wrap16]
    exact exec_addov _
  · rw [← judge_setR_wrap16]
    exact exec_subov _

/-- A clamped value reads back as the nearer end of the range, or as itself (R139). -/
theorem toInt_wrap16_clamp16 (v : Int) : (wrap16 (clamp16 v)).toInt = max (-32768) (min 32767 v) :=
  (s16_wrap16_clamp16 v).trans (clamp16_eq v)

/-- Settles O35: a clamped value always fits. -/
theorem addsAndSubsSaturate : Obligations.AddsAndSubsSaturate :=
  fun s => ⟨_, _, toInt_wrap16_clamp16 _, exec_adds s, toInt_wrap16_clamp16 _, exec_subs s⟩

/-! ## Power -/

/-- Settles O36: the sign of the exponent decides the two branches, and `power` is the run. -/
theorem powIsRepeatedMultiplication : Obligations.PowIsRepeatedMultiplication := by
  intro s
  constructor
  · intro hb
    refine ⟨_, _, ?_, (exec_pow s).trans (if_neg hb.not_gt)⟩
    rw [toInt_wrap16_power _ _ (toNat_toInt_le s.b)]
    exact power_isPowerRun _ _ (toNat_toInt_le s.b)
  · intro hb
    exact (exec_pow s).trans (if_pos hb)

/-- Settles O37: after POW `R` holds the power, so the flag POWOV writes is the one already there. -/
theorem powovJudgesThePower : Obligations.PowovJudgesThePower := by
  intro s
  constructor
  · intro hb
    refine ⟨_, _, _, power_isPowerRun _ _ (toNat_toInt_le s.b), (exec_powov s).trans (if_neg hb.not_gt),
      (exec_pow s).trans (if_neg hb.not_gt), (exec_powov _).trans ((if_neg hb.not_gt).trans ?_)⟩
    simp only [toInt_wrap16_power _ _ (toNat_toInt_le s.b), ne_eq, not_true_eq_false, decide_false, Bool.or_false]
  · intro hb
    exact (exec_powov s).trans (if_pos hb)

/-! ## Corner cases of POW and FACT -/

/-- POW when none of its steps wraps: `v 0`, `v 1`, … are 1.0 and the products after it. -/
theorem exec_pow_of_exact {s : State} (v : Nat → Int) (hb : 0 ≤ s.b.toInt) (hv : v 0 = sNum s.build)
    (hstep : ∀ j < s.b.toInt.toNat, powProduct s.build s.a.toInt (0 + j) (v j) = v (j + 1))
    (hfits : ∀ j < s.b.toInt.toNat, ¬ OutOfRange (v (j + 1))) :
    exec .pow s = .next { s with r := wrap16 (v s.b.toInt.toNat), ovf := false } := by
  have hpower : power s.build s.a.toInt s.b.toInt.toNat = { acc := v s.b.toInt.toNat, ov := false } := by
    have hrun := narrowRun_of_exact hstep hfits
    rwa [hv, ← power_eq_narrowRun _ _ (toNat_toInt_le s.b)] at hrun
  rw [exec_pow, if_neg hb.not_gt, hpower]

/-- `a^0` is 1.0 (R141 (1)). -/
theorem exec_pow_zero {s : State} (hb : s.b.toInt = 0) :
    exec .pow s = .next { s with r := wrap16 (sNum s.build), ovf := false } :=
  exec_pow_of_exact (fun _ => sNum s.build) hb.ge rfl (by simp [hb]) (by simp [hb])

/-- `a^1` is `a` (R141 (1)). -/
theorem exec_pow_one {s : State} (hb : s.b.toInt = 1) : exec .pow s = .next { s with r := s.a, ovf := false } := by
  have hpow := exec_pow_of_exact (s := s) (fun j => if j = 0 then sNum s.build else s.a.toInt) (by omega) rfl
    (fun j hj => ?_) (fun j _ => not_outOfRange_s16 s.a)
  · rw [hpow, if_neg (by omega), wrap16_toInt]
  · obtain rfl : j = 0 := by omega
    exact powProduct_of_exact (mul_comm _ _) 0

/-- `1.0^n` is 1.0 (R141 (2)): the run stands still. -/
theorem exec_pow_of_base_one {s : State} (hb : 0 ≤ s.b.toInt) (ha : s.a.toInt = sNum s.build) :
    exec .pow s = .next { s with r := s.a, ovf := false } := by
  have hpow := exec_pow_of_exact (fun _ => sNum s.build) hb rfl
    (fun _ _ => powProduct_of_exact (by rw [ha]) _) (fun _ _ => sNum_fits s.build)
  rw [hpow, ← ha, wrap16_toInt]

/-- `(-1)^n * S_NUM` fits a register. -/
theorem alternating_fits (bd : Build) (n : Nat) : ¬ OutOfRange ((-1) ^ n * sNum bd) := by
  have hcases := sNum_cases bd
  unfold OutOfRange
  rcases neg_one_pow_eq_or Int n with hsign | hsign <;> rw [hsign] <;> omega

/-- `(-1.0)^n` alternates (R141 (3)). -/
theorem exec_pow_of_base_neg_one {s : State} (hb : 0 ≤ s.b.toInt) (ha : s.a.toInt = -sNum s.build) :
    exec .pow s = .next { s with r := wrap16 ((-1) ^ s.b.toInt.toNat * sNum s.build), ovf := false } := by
  have hproduct (j : Nat) : (-1) ^ j * sNum s.build * s.a.toInt = (-1) ^ (j + 1) * sNum s.build * sNum s.build := by
    rw [ha]
    ring
  exact exec_pow_of_exact (fun j => (-1) ^ j * sNum s.build) hb (by simp)
    (fun j _ => powProduct_of_exact (hproduct j) _) (fun j _ => alternating_fits s.build (j + 1))

theorem neg_one_pow_toNat {n : Int} (hn : 0 ≤ n) : (-1 : Int) ^ n.toNat = if n % 2 = 0 then 1 else -1 := by
  split
  · exact Even.neg_one_pow (Nat.even_iff.mpr (by omega))
  · exact Odd.neg_one_pow (Nat.odd_iff.mpr (by omega))

theorem scaled_factorial_fits (bd : Build) {n : Nat} (hn : n ≤ 5) : ¬ OutOfRange (sNum bd * (n.factorial : Int)) := by
  have hle : n.factorial ≤ 120 := Nat.factorial_le hn
  unfold OutOfRange
  rcases sNum_cases bd with hscale | hscale <;> rw [hscale] <;> omega

/-- Up to 5! no step of FACT wraps (R216). -/
theorem factorialRun_of_le_five (bd : Build) {n : Nat} (hn : n ≤ 5) :
    narrowRun factProduct 1 (sNum bd) n = { acc := sNum bd * (n.factorial : Int), ov := false } := by
  have hrun := narrowRun_of_exact (g := factProduct) (i := 1) (v := fun j => sNum bd * (j.factorial : Int))
    (n := n) (fun j _ => ?_) (fun j hj => scaled_factorial_fits bd (by omega))
  · simpa using hrun
  · rw [factProduct, Nat.factorial_succ]
    push_cast
    ring

/-- From 6 on the sixth step of FACT, 6 times 5!, wraps (R216). -/
theorem factorialRun_ov_of_ge_six (bd : Build) {n : Nat} (hn : 6 ≤ n) :
    (narrowRun factProduct 1 (sNum bd) n).ov = true := by
  refine (narrowRun_ov_iff _ 1 (sNum bd) n).mpr ⟨5, hn, ?_⟩
  rw [factorialRun_of_le_five bd le_rfl]
  cases bd <;> decide

theorem exec_fact_of_le_five {s : State} (ha : 0 ≤ s.a.toInt) (ha5 : s.a.toInt ≤ 5) :
    exec .fact s = .next { s with
      r := wrap16 (sNum s.build * (s.a.toInt.toNat.factorial : Int))
      ovf := false } := by
  rw [exec_fact, if_neg ha.not_gt, factorial_eq_narrowRun _ (toNat_toInt_le s.a), factorialRun_of_le_five _ (by omega)]

theorem exec_fact_of_ge_six {s : State} (ha : 6 ≤ s.a.toInt) :
    exec .fact s = .next { s with r := wrap16 (factorial s.build s.a.toInt.toNat).acc, ovf := true } := by
  rw [exec_fact, if_neg (by omega), factorial_eq_narrowRun _ (toNat_toInt_le s.a),
    factorialRun_ov_of_ge_six _ (by omega)]

/-- Settles O38: none of the runs wraps but FACT's from 6 on, so each ends in its exact value. -/
theorem powerAndFactorialCorners : Obligations.PowerAndFactorialCorners := by
  intro s
  refine ⟨fun hb => ⟨_, s16_wrap16_of_fits (sNum_fits s.build), exec_pow_zero hb⟩, exec_pow_one,
    fun ⟨hb, ha⟩ => exec_pow_of_base_one hb ha, fun ⟨hb, ha⟩ => ⟨_, ?_, exec_pow_of_base_neg_one hb ha⟩,
    fun ⟨ha, ha5⟩ => ⟨_, ?_, exec_fact_of_le_five ha ha5⟩, fun ha => ⟨_, exec_fact_of_ge_six ha⟩⟩
  · rw [← neg_one_pow_toNat hb]
    exact s16_wrap16_of_fits (alternating_fits s.build _)
  · exact s16_wrap16_of_fits (scaled_factorial_fits s.build (by omega))

end Sys2Proof.Machine
end

section
/-! PROOFS. The CORDIC angle table (43_cordic.md R161) against the real arctangents: entry 0 is an eighth of the circle,
the others are enclosed by partial sums of the arctangent's series. -/

namespace Sys2Proof.Machine

/-- The first `n` terms of the power series of the arctangent. -/
noncomputable def arctanSum (n : Nat) (x : ℝ) : ℝ :=
  ∑ j ∈ Finset.range n, (-1) ^ j * (x ^ (2 * j + 1) / (2 * j + 1 : Nat))

/-- The series alternates and its terms fall, so the arctangent lies between consecutive partial sums. -/
theorem arctan_between_arctanSums {x : ℝ} (h0 : 0 ≤ x) (h1 : x < 1) (k : Nat) :
    arctanSum (2 * k) x ≤ Real.arctan x ∧ Real.arctan x ≤ arctanSum (2 * k + 1) x := by
  have hterms : Antitone fun j : Nat => x ^ (2 * j + 1) / (2 * j + 1 : Nat) := fun m n hmn => by
    have hpow : x ^ (2 * n + 1) ≤ x ^ (2 * m + 1) := pow_le_pow_of_le_one h0 h1.le (by omega)
    dsimp only
    gcongr
  have hsum := (Real.hasSum_arctan (x := x) (by rwa [Real.norm_of_nonneg h0])).tendsto_sum_nat
  simp only [mul_div_assoc] at hsum
  exact ⟨hterms.alternating_series_le_tendsto hsum k, hterms.tendsto_le_alternating_series hsum k⟩

theorem cordicTable_length (bd : Build) : (cordicTable bd).length = cordicN bd := by cases bd <;> rfl

/-- Every entry is the arctangent at the internal scale, rounded to nearest (R161). -/
theorem cordicTable_getD_rounded (bd : Build) {i : Nat} (hi : i < cordicN bd) :
    |((cordicTable bd).getD i 0 : ℝ) - Real.arctan (1 / 2 ^ i) * (scale bd .rad * 2 ^ ash bd : ℝ)| < 1 / 2 := by
  rw [abs_sub_lt_iff]
  rcases Nat.eq_zero_or_pos i with rfl | hpos
  · have hlow := Real.pi_gt_d6
    have hhigh := Real.pi_lt_d6
    cases bd <;> norm_num [cordicTable, cordicTableDec, cordicTableBin, sRad, ash] <;> constructor <;> linarith
  · have hx : (1 / 2 ^ i : ℝ) < 1 := by
      rw [div_lt_one (by positivity)]
      exact one_lt_pow₀ one_lt_two hpos.ne'
    obtain ⟨hlow, hhigh⟩ := arctan_between_arctanSums (by positivity) hx 4
    generalize Real.arctan (1 / 2 ^ i) = t at *
    cases bd <;> simp only [cordicN] at hi <;> interval_cases i <;>
      norm_num [arctanSum, Finset.sum_range_succ, cordicTable, cordicTableDec, cordicTableBin, sRad, ash]
        at hlow hhigh ⊢ <;> constructor <;> linarith

/-- Settles O22: the entries against the arctangents one by one, the order of the table by evaluation. -/
theorem cordicTableIsTheRoundedArctangents : Obligations.CordicTableIsTheRoundedArctangents := by
  intro bd
  refine ⟨cordicTable_length bd, fun i hi => cordicTable_getD_rounded bd hi, ?_, ?_⟩ <;> cases bd <;> decide

end Sys2Proof.Machine
end

section
/-! PROOFS. The meanings of SIN, COS, SINCOS and TAN (43_cordic.md R164, R167 to R172), and what follows from their shape
alone: the run of the rotation kernel, and the period. -/

namespace Sys2Proof.Machine

/-! ## The commands' meanings -/

theorem exec_sin (s : State) : exec .sin s = .next { s with r := wrap16 (sine s.build s.a.toInt) } := rfl

theorem exec_cos (s : State) : exec .cos s = .next { s with r := wrap16 (cosine s.build s.a.toInt) } := rfl

theorem exec_sincos (s : State) :
    exec .sincos s =
      .next { s with r := wrap16 (sine s.build s.a.toInt), rh := wrap16 (cosine s.build s.a.toInt) } := rfl

/-- TAN is one choice: `DIVZERO` for a zero cosine, else the wrapped quotient (R172). -/
theorem exec_tan (s : State) :
    exec .tan s =
      if cosine s.build s.a.toInt = 0 then .next (afterFault s 1)
      else .next { s with
        r := wrap16 (rdivs (sine s.build s.a.toInt * scale s.build .num) (cosine s.build s.a.toInt)) } := by
  rw [← faultNext_divzero]
  rfl

/-! ## The run -/

/-- The rotation is the start vector taken through one iteration per table entry (R167). -/
theorem rotate_seq (bd : Build) (theta : Int) :
    ∃ c : Nat → Cordic, c 0 = { x := cordicUnit bd, y := 0, z := shl theta (ash bd) } ∧
      (∀ i < cordicN bd, c (i + 1) = rotStep i ((cordicTable bd).getD i 0) (c i)) ∧
      c (cordicN bd) = rotate bd theta := by
  simpa only [rotate, cordicTable_length, Nat.zero_add] using
    rotLoop_seq (cordicTable bd) 0 { x := cordicUnit bd, y := 0, z := shl theta (ash bd) }

theorem rotate_isRotation (bd : Build) (theta : Int) :
    IsRotation bd theta (rotate bd theta).x (rotate bd theta).y := by
  obtain ⟨c, hfirst, hsteps, hlast⟩ := rotate_seq bd theta
  refine ⟨fun i => (c i).x, fun i => (c i).y, fun i => (c i).z, congrArg Cordic.x hfirst, congrArg Cordic.y hfirst,
    congrArg Cordic.z hfirst, fun i hi => ?_, congrArg Cordic.x hlast, congrArg Cordic.y hlast⟩
  rw [← cordicTable_eq_printed]
  simp only [hsteps i hi]
  rcases rotStep_cases i ((cordicTable bd).getD i 0) (c i) with ⟨hz, hstep⟩ | ⟨hz, hstep⟩ <;> rw [hstep]
  · exact .inl ⟨hz, rfl, rfl, rfl⟩
  · exact .inr ⟨hz, rfl, rfl, rfl⟩

/-- Settles O39: unwinding, the run and the length correction each meet their relation, and all three commands use them. -/
theorem sinCosAndSincosRunTheRotation : Obligations.SinCosAndSincosRunTheRotation := fun s =>
  ⟨_, _, _, _, _, _, _, _, _, unwind_spec _ _, rotate_isRotation _ _, lengthCorrect_isNearest _ _,
    lengthCorrect_isNearest _ _, isPattern_wrap16 _, isPattern_wrap16 _, exec_sin s, exec_cos s, exec_sincos s⟩

/-! ## The period and the quarter turns (R165) -/

/-- Unwinding sees the angle modulo the full circle only (R164). -/
theorem unwind_add_cTwoPi (bd : Build) (phi : Int) : unwind bd (phi + cTwoPi bd) = unwind bd phi := by
  simp only [unwind, Int.add_emod_right]

theorem sine_add_cTwoPi (bd : Build) (phi : Int) : sine bd (phi + cTwoPi bd) = sine bd phi := by
  simp only [sine, unwind_add_cTwoPi]

theorem cosine_add_cTwoPi (bd : Build) (phi : Int) : cosine bd (phi + cTwoPi bd) = cosine bd phi := by
  simp only [cosine, unwind_add_cTwoPi]

/-- Twelve runs of the kernel: four angles in three builds (R165, L1.3). -/
theorem sine_cosine_at_quarterTurns (bd : Build) :
    (sine bd 0 = 0 ∧ cosine bd 0 = sNum bd) ∧
    (sine bd (cHalfPi bd) = sNum bd ∧ cosine bd (cHalfPi bd) = 0) ∧
    (sine bd (cPi bd) = 0 ∧ cosine bd (cPi bd) = -sNum bd) ∧
    (sine bd (cThreeHalfPi bd) = -sNum bd ∧ cosine bd (cThreeHalfPi bd) = 0) := by
  cases bd <;> decide

end Sys2Proof.Machine
end

section
/-! PROOFS. The accuracy of the rotation kernel (43_cordic.md R167). In the complex plane iteration `i` multiplies the
vector by `1 ± 2⁻ⁱ I`, which stretches it by a fixed factor and turns it by the arctangent of `2⁻ⁱ`; the shifts lose at
most a unit in each component. So after `n` iterations the vector is the unit vector turned by some angle and stretched by
the gain, up to an error of `n` times the gain, and that angle is the one the residual has lost, up to the rounding of the
table. -/

namespace Sys2Proof.Machine

/-! ## One iteration in the complex plane -/

/-- The vector of a CORDIC run as a complex number. -/
def Cordic.point (v : Cordic) : ℂ := ⟨v.x, v.y⟩

/-- Both branches of an iteration are one formula in the direction of rotation (R167). -/
theorem rotStep_eq_directed (i : Nat) (t : Int) (v : Cordic) :
    ∃ σ : Int, (σ = 1 ∨ σ = -1) ∧
      rotStep i t v = { x := v.x - σ * (v.y / 2 ^ i), y := v.y + σ * (v.x / 2 ^ i), z := v.z - σ * t } := by
  rcases rotStep_cases i t v with ⟨-, hstep⟩ | ⟨-, hstep⟩
  · exact ⟨1, .inl rfl, by simp [hstep]⟩
  · exact ⟨-1, .inr rfl, by simp [hstep, ← sub_eq_add_neg]⟩

/-- A shift loses at most one unit: it is the floor of the exact quotient (R16). -/
theorem abs_shift_error (a : Int) (i : Nat) : |((a / 2 ^ i : Int) : ℝ) - a * (1 / 2 ^ i)| ≤ 1 := by
  have hfloor : a / 2 ^ i = ⌊(a / 2 ^ i : ℝ)⌋ := by
    simpa using (Int.floor_div_natCast (a : ℝ) (2 ^ i)).symm
  rw [hfloor, mul_one_div, abs_sub_comm, abs_le]
  constructor <;> linarith [Int.floor_le (a / 2 ^ i : ℝ), Int.lt_floor_add_one (a / 2 ^ i : ℝ)]

/-- Two shifted components, each within a unit of the exact one, put the vector within `√2` of the exact product. -/
theorem norm_shift_error_le {a b p q k σ : ℝ} (hσ : |σ| = 1) (hp : |p - a * k| ≤ 1) (hq : |q - b * k| ≤ 1) :
    ‖(⟨a - σ * q, b + σ * p⟩ - ⟨a, b⟩ * (1 + (σ * k : ℝ) * Complex.I) : ℂ)‖ ≤ √2 := by
  have herror : (⟨a - σ * q, b + σ * p⟩ - ⟨a, b⟩ * (1 + (σ * k : ℝ) * Complex.I) : ℂ) =
      ⟨σ * (b * k - q), σ * (p - a * k)⟩ := by
    apply Complex.ext <;> simp <;> ring
  rw [abs_sub_comm] at hq
  rw [herror]
  refine (Complex.norm_le_sqrt_two_mul_max _).trans (mul_le_of_le_one_right (Real.sqrt_nonneg 2) (max_le ?_ ?_)) <;>
    simpa only [abs_mul, hσ, one_mul]

/-- The factor of an iteration in polar form. -/
theorem one_add_mul_I_eq (x : ℝ) :
    (1 + x * Complex.I : ℂ) = (√(1 + x ^ 2) : ℝ) * Complex.exp (Real.arctan x * Complex.I) := by
  have hpos : ((√(1 + x ^ 2) : ℝ) : ℂ) ≠ 0 := by exact_mod_cast (by positivity : √(1 + x ^ 2) ≠ 0)
  rw [Complex.exp_mul_I, ← Complex.ofReal_cos, ← Complex.ofReal_sin, Real.cos_arctan, Real.sin_arctan]
  push_cast
  field_simp

theorem norm_one_add_mul_I (x : ℝ) : ‖(1 + x * Complex.I : ℂ)‖ = √(1 + x ^ 2) := by
  rw [one_add_mul_I_eq, norm_mul, Complex.norm_exp_ofReal_mul_I, mul_one, Complex.norm_of_nonneg (Real.sqrt_nonneg _)]

/-- How one turn carries the error along: what was off is stretched with the vector, and `√2` comes on top. -/
theorem norm_sub_turned_le {v v' u : ℂ} {x φ g : ℝ} {n : Nat} (hturn : ‖v' - v * (1 + x * Complex.I)‖ ≤ √2)
    (hv : ‖v - g * (u * Complex.exp (φ * Complex.I))‖ ≤ n * g) (hg : √2 ≤ g * √(1 + x ^ 2)) :
    ‖v' - (g * √(1 + x ^ 2) : ℝ) * (u * Complex.exp ((φ + Real.arctan x : ℝ) * Complex.I))‖ ≤
      (n + 1 : Nat) * (g * √(1 + x ^ 2)) := by
  set w : ℂ := g * (u * Complex.exp (φ * Complex.I))
  have hw : (g * √(1 + x ^ 2) : ℝ) * (u * Complex.exp ((φ + Real.arctan x : ℝ) * Complex.I)) =
      w * (1 + x * Complex.I) := by
    rw [one_add_mul_I_eq, Complex.ofReal_add, add_mul, Complex.exp_add]
    push_cast
    ring
  calc ‖v' - (g * √(1 + x ^ 2) : ℝ) * (u * Complex.exp ((φ + Real.arctan x : ℝ) * Complex.I))‖
      = ‖(v' - v * (1 + x * Complex.I)) + (v - w) * (1 + x * Complex.I)‖ := by
        rw [hw, sub_mul, sub_add_sub_cancel]
    _ ≤ √2 + n * g * √(1 + x ^ 2) := by
        refine (norm_add_le _ _).trans (add_le_add hturn ?_)
        rw [norm_mul, norm_one_add_mul_I]
        gcongr
    _ ≤ (n + 1 : Nat) * (g * √(1 + x ^ 2)) := by
        push_cast
        linarith

/-! ## The gain -/

/-- The factor by which the first `n` iterations stretch the vector, whatever their directions (R162). -/
noncomputable def cordicGain (n : Nat) : ℝ := √(∏ i ∈ Finset.range n, (1 + (1 / 2 ^ i) ^ 2))

theorem cordicGain_succ (n : Nat) : cordicGain (n + 1) = cordicGain n * √(1 + (1 / 2 ^ n) ^ 2) := by
  rw [cordicGain, Finset.prod_range_succ, Real.sqrt_mul (by positivity)]
  rfl

theorem sqrt_two_le_cordicGain_succ (n : Nat) : √2 ≤ cordicGain (n + 1) := by
  induction n with
  | zero => norm_num [cordicGain]
  | succ n ih =>
    rw [cordicGain_succ]
    refine ih.trans (le_mul_of_one_le_right (Real.sqrt_nonneg _) (Real.one_le_sqrt.mpr ?_))
    linarith [sq_nonneg (1 / 2 ^ (n + 1) : ℝ)]

theorem cordicGain_bounds (bd : Build) : 1.6 ≤ cordicGain (cordicN bd) ∧ cordicGain (cordicN bd) ≤ 1.65 := by
  rw [cordicGain]
  refine ⟨Real.le_sqrt_of_sq_le ?_, Real.sqrt_le_iff.mpr ⟨by norm_num, ?_⟩⟩ <;> cases bd <;>
    norm_num [cordicN, Finset.prod_range_succ]

theorem cordicUnit_nonneg (bd : Build) : (0 : ℝ) ≤ cordicUnit bd := by cases bd <;> norm_num [cordicUnit]

/-! ## The invariant of the run -/

/-- `v` is what `n` iterations from the unit vector and the residual `z0` may leave, having turned by `φ`: the vector
within `n` gains of the exact one, and the angle within the table's rounding of what the residual has lost. -/
def TurnedBy (bd : Build) (z0 : Int) (n : Nat) (v : Cordic) (φ : ℝ) : Prop :=
  ‖v.point - cordicGain n * (cordicUnit bd * Complex.exp (φ * Complex.I))‖ ≤ n * cordicGain n ∧
    |φ * (scale bd .rad * 2 ^ ash bd) - (z0 - v.z)| ≤ n / 2

theorem turnedBy_start (bd : Build) (z0 : Int) : TurnedBy bd z0 0 { x := cordicUnit bd, y := 0, z := z0 } 0 := by
  have hreal : (⟨cordicUnit bd, 0⟩ : ℂ) = cordicUnit bd := rfl
  exact ⟨by simp [Cordic.point, cordicGain, hreal], by simp⟩

theorem turnedBy_rotStep {bd : Build} {z0 : Int} {n : Nat} {v : Cordic} {φ : ℝ} (hn : n < cordicN bd)
    (h : TurnedBy bd z0 n v φ) : ∃ ψ, TurnedBy bd z0 (n + 1) (rotStep n ((cordicTable bd).getD n 0) v) ψ := by
  obtain ⟨hpoint, hangle⟩ := h
  obtain ⟨σ, hσ, hstep⟩ := rotStep_eq_directed n ((cordicTable bd).getD n 0) v
  have habs : |(σ : ℝ)| = 1 := by rcases hσ with rfl | rfl <;> simp
  have hgain : cordicGain (n + 1) = cordicGain n * √(1 + (σ * (1 / 2 ^ n)) ^ 2) := by
    rw [cordicGain_succ, mul_pow, ← sq_abs (σ : ℝ), habs, one_pow, one_mul]
  have harctan : Real.arctan (σ * (1 / 2 ^ n)) = σ * Real.arctan (1 / 2 ^ n) := by
    rcases hσ with rfl | rfl <;> simp [Real.arctan_neg]
  refine ⟨φ + Real.arctan (σ * (1 / 2 ^ n)), ?_, ?_⟩
  · rw [hgain]
    refine norm_sub_turned_le ?_ hpoint (hgain ▸ sqrt_two_le_cordicGain_succ n)
    rw [hstep]
    simpa [Cordic.point] using norm_shift_error_le habs (abs_shift_error v.x n) (abs_shift_error v.y n)
  · have hround := cordicTable_getD_rounded bd hn
    rw [hstep, harctan]
    generalize (cordicTable bd).getD n 0 = t at *
    rw [abs_le] at hangle ⊢
    rw [abs_lt] at hround
    rcases hσ with rfl | rfl <;> push_cast <;> constructor <;> linarith

theorem exists_turnedBy_rotate (bd : Build) (theta : Int) :
    ∃ φ, TurnedBy bd (shl theta (ash bd)) (cordicN bd) (rotate bd theta) φ := by
  obtain ⟨c, hfirst, hsteps, hlast⟩ := rotate_seq bd theta
  have hrun : ∀ n ≤ cordicN bd, ∃ φ, TurnedBy bd (shl theta (ash bd)) n (c n) φ := by
    intro n hn
    induction n with
    | zero => exact ⟨0, hfirst ▸ turnedBy_start bd _⟩
    | succ n ih =>
      obtain ⟨φ, hφ⟩ := ih (by omega)
      exact hsteps n hn ▸ turnedBy_rotStep hn hφ
  exact hlast ▸ hrun _ le_rfl

/-! ## The residual -/

/-- The condition under which the iterations drive every residual they can reach to within `last`: no entry exceeds the
sum of those after it by more than `last`. -/
def ResidualConverges (last : Int) : List Int → Prop
  | [] => True
  | t :: ts => 0 ≤ t ∧ t ≤ last + ts.sum ∧ ResidualConverges last ts

theorem cordicTable_residualConverges (bd : Build) : ResidualConverges 8 (cordicTable bd) := by
  cases bd <;> simp [ResidualConverges, cordicTable, cordicTableDec, cordicTableBin]

theorem abs_rotLoop_z_le {last : Int} {ts : List Int} (h : ResidualConverges last ts) (i : Nat) {v : Cordic}
    (hv : |v.z| ≤ last + ts.sum) : |(rotLoop ts i v).z| ≤ last := by
  induction ts generalizing i v with
  | nil => simpa [rotLoop] using hv
  | cons t ts ih =>
    obtain ⟨ht, hsum, hconv⟩ := h
    refine ih hconv (i + 1) ?_
    rw [List.sum_cons, abs_le] at hv
    rw [abs_le]
    rcases rotStep_cases i t v with ⟨hz, hstep⟩ | ⟨hz, hstep⟩ <;> rw [hstep] <;> dsimp only <;> omega

/-- Every first-quadrant residual is driven to within 8, the last entry of the binary table (R161, R164). -/
theorem abs_rotate_z_le {bd : Build} {theta : Int} (h0 : 0 ≤ theta) (h1 : theta ≤ cHalfPi bd + 1) :
    |(rotate bd theta).z| ≤ 8 := by
  refine abs_rotLoop_z_le (cordicTable_residualConverges bd) 0 ?_
  rw [abs_le]
  cases bd <;> norm_num [shl, ash, cHalfPi, cordicTable, cordicTableDec, cordicTableBin] at h1 ⊢ <;> omega

/-! ## What the invariant says of the result -/

theorem norm_point_le_of_turnedBy {bd : Build} {z0 : Int} {v : Cordic} {φ : ℝ}
    (h : TurnedBy bd z0 (cordicN bd) v φ) : ‖v.point‖ ≤ 1.65 * (cordicUnit bd + cordicN bd) := by
  obtain ⟨hpoint, -⟩ := h
  obtain ⟨hlow, hhigh⟩ := cordicGain_bounds bd
  have hunit := cordicUnit_nonneg bd
  have hexact : ‖(cordicGain (cordicN bd) * (cordicUnit bd * Complex.exp (φ * Complex.I)) : ℂ)‖ =
      cordicGain (cordicN bd) * cordicUnit bd := by
    rw [norm_mul, norm_mul, Complex.norm_exp_ofReal_mul_I, mul_one, Complex.norm_of_nonneg (by linarith),
      ← Complex.ofReal_intCast, Complex.norm_of_nonneg hunit]
  calc ‖v.point‖ ≤ cordicGain (cordicN bd) * cordicUnit bd + cordicN bd * cordicGain (cordicN bd) := by
        rw [← hexact]
        exact (norm_le_norm_add_norm_sub' _ _).trans (by gcongr)
    _ = cordicGain (cordicN bd) * (cordicUnit bd + cordicN bd) := by ring
    _ ≤ 1.65 * (cordicUnit bd + cordicN bd) := by gcongr

theorem le_x_of_turnedBy {bd : Build} {z0 : Int} {n : Nat} {v : Cordic} {φ : ℝ} (h : TurnedBy bd z0 n v φ) :
    cordicGain n * (cordicUnit bd * Real.cos φ - n) ≤ v.x := by
  obtain ⟨hpoint, -⟩ := h
  have hre := (Complex.abs_re_le_norm _).trans hpoint
  rw [Complex.sub_re, Complex.re_ofReal_mul, ← Complex.ofReal_intCast, Complex.re_ofReal_mul,
    Complex.exp_ofReal_mul_I_re, abs_le] at hre
  calc cordicGain n * (cordicUnit bd * Real.cos φ - n) ≤ v.point.re := by linarith
    _ = v.x := rfl

/-- The angle turned, at the internal scale, exceeds the operand by at most the residual and the table's rounding. -/
theorem abs_angle_le_of_turnedBy {bd : Build} {theta : Int} {v : Cordic} {n : Nat} {φ : ℝ} (h0 : 0 ≤ theta)
    (hz : |v.z| ≤ 8) (h : TurnedBy bd (shl theta (ash bd)) n v φ) :
    |φ| * (scale bd .rad * 2 ^ ash bd) ≤ theta * 2 ^ ash bd + 8 + n / 2 := by
  obtain ⟨-, hangle⟩ := h
  have hscale : (0 : ℝ) < scale bd .rad := by exact_mod_cast scale_pos bd .rad
  have htheta : (0 : ℝ) ≤ theta * 2 ^ ash bd := by positivity
  have hz' : |(v.z : ℝ)| ≤ 8 := by exact_mod_cast hz
  rw [shl] at hangle
  push_cast at hangle
  rw [← abs_of_pos (by positivity : (0 : ℝ) < scale bd .rad * 2 ^ ash bd), ← abs_mul]
  rw [abs_le] at hangle hz' ⊢
  constructor <;> linarith

end Sys2Proof.Machine
end

section
/-! PROOFS. What the kernel's accuracy decides: sine and cosine never leave -1.0 .. 1.0 (43_cordic.md R168), the rounded
cosine is 0 exactly in the bands of R172, and so TAN divides or faults as listed. -/

namespace Sys2Proof.Machine

/-! ## The range of sine and cosine (R168) -/

/-- A rounded quotient is no larger than `m` where the exact one is below `m + 1/2`. -/
theorem abs_le_of_isNearest {p d q m : Int} (h : IsNearest p d q) (hm : 2 * |p| < (2 * m + 1) * |d|) : |q| ≤ m := by
  obtain ⟨-, hnear, -⟩ := h
  by_contra! hlt
  have hlarge : (m + 1) * |d| ≤ |q * d| := by
    rw [abs_mul]
    exact mul_le_mul_of_nonneg_right hlt (abs_nonneg d)
  have htriangle : |q * d| ≤ |p| + |p - q * d| := by
    simpa [abs_sub_comm, add_comm] using abs_sub_le (q * d) p 0
  linarith

theorem abs_lengthCorrect_le {bd : Build} {v : Int} (hv : |(v : ℝ)| ≤ 1.65 * (cordicUnit bd + cordicN bd)) :
    |lengthCorrect bd v| ≤ sNum bd := by
  have hv' : 100 * |v| ≤ 165 * (cordicUnit bd + cordicN bd) := by
    rify
    linarith
  apply abs_le_of_isNearest (lengthCorrect_isNearest bd v)
  rw [abs_mul]
  cases bd <;> norm_num [cordicUnit, cordicN, cordicK, sNum, cordicLC] at hv' ⊢ <;> linarith

theorem unwind_signs (bd : Build) (phi : Int) :
    ((unwind bd phi).ssin = 1 ∨ (unwind bd phi).ssin = -1) ∧
      ((unwind bd phi).scos = 1 ∨ (unwind bd phi).scos = -1) := by
  obtain ⟨r, -, -, -, hquadrant⟩ := unwind_spec bd phi
  omega

theorem abs_sine_le (bd : Build) (phi : Int) : |sine bd phi| ≤ sNum bd := by
  obtain ⟨φ, hφ⟩ := exists_turnedBy_rotate bd (unwind bd phi).theta
  have hbound := abs_lengthCorrect_le ((Complex.abs_im_le_norm _).trans (norm_point_le_of_turnedBy hφ))
  obtain ⟨hsign | hsign, -⟩ := unwind_signs bd phi <;> simpa [sine, hsign] using hbound

theorem abs_cosine_le (bd : Build) (phi : Int) : |cosine bd phi| ≤ sNum bd := by
  obtain ⟨φ, hφ⟩ := exists_turnedBy_rotate bd (unwind bd phi).theta
  have hbound := abs_lengthCorrect_le ((Complex.abs_re_le_norm _).trans (norm_point_le_of_turnedBy hφ))
  obtain ⟨-, hsign | hsign⟩ := unwind_signs bd phi <;> simpa [cosine, hsign] using hbound

/-- Everything within the square of 1.0 fits a register. -/
theorem toInt_wrap16_of_abs_le {bd : Build} {v : Int} (hv : |v| ≤ sNum bd * sNum bd) : (wrap16 v).toInt = v := by
  have hfits : ¬ OutOfRange v := by
    rw [abs_le] at hv
    unfold OutOfRange
    rcases sNum_cases bd with h | h <;> rw [h] at hv <;> omega
  exact s16_wrap16_of_fits hfits

theorem sNum_le_sq (bd : Build) : sNum bd ≤ sNum bd * sNum bd := by cases bd <;> decide

theorem toInt_wrap16_sine (bd : Build) (phi : Int) : (wrap16 (sine bd phi)).toInt = sine bd phi :=
  toInt_wrap16_of_abs_le ((abs_sine_le bd phi).trans (sNum_le_sq bd))

theorem toInt_wrap16_cosine (bd : Build) (phi : Int) : (wrap16 (cosine bd phi)).toInt = cosine bd phi :=
  toInt_wrap16_of_abs_le ((abs_cosine_le bd phi).trans (sNum_le_sq bd))

/-- Settles O41: the stretched unit vector, with all the shifts can add, is too short to round beyond 1.0. -/
theorem sineAndCosineStayWithinOne : Obligations.SineAndCosineStayWithinOne := by
  intro s
  refine ⟨_, _, exec_sincos s, ?_, ?_⟩
  · rw [toInt_wrap16_sine]
    exact abs_sine_le _ _
  · rw [toInt_wrap16_cosine]
    exact abs_cosine_le _ _

/-- Settles O42: unwinding is periodic, and the four angles are evaluated. -/
theorem sineAndCosineArePeriodicAndExactAtQuarterTurns :
    Obligations.SineAndCosineArePeriodicAndExactAtQuarterTurns := by
  intro s
  constructor
  · intro s' hbuild ha
    refine ⟨_, _, exec_sincos s, ?_⟩
    rw [exec_sincos s', hbuild, ha, sine_add_cTwoPi, cosine_add_cTwoPi]
  · obtain ⟨hzero, hhalf, hpi, hthreeHalf⟩ := sine_cosine_at_quarterTurns s.build
    refine ⟨_, _, exec_sincos s, ?_⟩
    simp only [toInt_wrap16_sine, toInt_wrap16_cosine, scale_num]
    exact ⟨fun ha => ha ▸ hzero, fun ha => ha ▸ hhalf, fun ha => ha ▸ hpi, fun ha => ha ▸ hthreeHalf⟩

/-! ## The bands of R172 -/

/-- The least first-quadrant angle whose cosine rounds to 0. -/
def tanBandStart (bd : Build) : Int :=
  match bd with
  | .dec => 1566
  | .binQ510 => 1605
  | .binQ69 => 803

theorem unwind_theta_range (bd : Build) (phi : Int) :
    0 ≤ (unwind bd phi).theta ∧ (unwind bd phi).theta ≤ cHalfPi bd + 1 := by
  obtain ⟨r, hnonneg, hlt, -, hquadrant⟩ := unwind_spec bd phi
  cases bd <;> simp only [cHalfPi, cPi, cThreeHalfPi, cTwoPi] at * <;> omega

/-- Folded into the first quadrant, the two bands of R172 are one (R164). -/
theorem tanPole_iff (bd : Build) (phi : Int) :
    TanPole bd (phi % cTwoPi bd) ↔ tanBandStart bd ≤ (unwind bd phi).theta := by
  obtain ⟨r, hnonneg, hlt, hdvd, hquadrant⟩ := unwind_spec bd phi
  have hr : phi % cTwoPi bd = r := (Int.modEq_iff_dvd.mpr hdvd).eq.symm.trans (Int.emod_eq_of_lt hnonneg hlt)
  rw [hr]
  cases bd <;> simp only [tanBandStart, cHalfPi, cPi, cThreeHalfPi, cTwoPi] at * <;> omega

/-- The few angles from just below the band on, where the margin is too small for the error bound: one run each. -/
theorem lengthCorrect_x_eq_zero_iff_near {bd : Build} {theta : Int} (hlow : tanBandStart bd - 1 ≤ theta)
    (hhigh : theta ≤ cHalfPi bd + 1) : lengthCorrect bd (rotate bd theta).x = 0 ↔ tanBandStart bd ≤ theta := by
  cases bd <;> norm_num only [tanBandStart, cHalfPi] at hlow hhigh <;> interval_cases theta <;> decide

theorem le_cos_of_abs_le {φ δ : ℝ} (hδ : 0 < δ) (hφ : |φ| ≤ Real.pi / 2 - δ) : δ - δ ^ 3 / 6 ≤ Real.cos φ := by
  rw [← Real.cos_abs]
  calc δ - δ ^ 3 / 6 ≤ Real.sin δ := (Real.sin_gt_sub_cube hδ).le
    _ = Real.cos (Real.pi / 2 - δ) := (Real.cos_pi_div_two_sub δ).symm
    _ ≤ Real.cos |φ| := Real.cos_le_cos_of_nonneg_of_le_pi (abs_nonneg φ) (by linarith [Real.pi_pos]) hφ

/-- The numbers of the error bound. Two steps below the band the angle turned stays `δ` short of the quarter turn; there the
unit vector's `x`, less the shift losses, is still `m`; and the gain makes of `m` what does not round to 0. -/
theorem exists_poleGap (bd : Build) :
    ∃ δ m : ℝ, 0 < δ ∧ 0 ≤ m ∧ m ≤ cordicUnit bd * (δ - δ ^ 3 / 6) - cordicN bd ∧
      (cordicLC bd : ℝ) < 2 * (1.6 * m * cordicK bd) ∧
      (tanBandStart bd - 2) * 2 ^ ash bd + 8 + cordicN bd / 2 ≤
        (Real.pi / 2 - δ) * (scale bd .rad * 2 ^ ash bd) := by
  have hpi := Real.pi_gt_d6
  cases bd
  case dec =>
    refine ⟨0.006, 550, ?_, ?_, ?_, ?_, ?_⟩ <;>
      norm_num [cordicUnit, cordicN, cordicLC, cordicK, tanBandStart, ash, sRad]
    linarith
  all_goals
    refine ⟨0.0051, 68, ?_, ?_, ?_, ?_, ?_⟩ <;>
      norm_num [cordicUnit, cordicN, cordicLC, cordicK, tanBandStart, ash, sRad]
    linarith

/-- Below the band `x` is more than half a unit of the result. -/
theorem cordicLC_lt_of_below_band {bd : Build} {theta : Int} (h0 : 0 ≤ theta) (h1 : theta ≤ tanBandStart bd - 2) :
    cordicLC bd < 2 * ((rotate bd theta).x * cordicK bd) := by
  obtain ⟨δ, m, hδ, hm, hunit, hlarge, hgap⟩ := exists_poleGap bd
  obtain ⟨φ, hturned⟩ := exists_turnedBy_rotate bd theta
  have hquarter : theta ≤ cHalfPi bd + 1 := by cases bd <;> simp only [tanBandStart, cHalfPi] at h1 ⊢ <;> omega
  have hangle := abs_angle_le_of_turnedBy h0 (abs_rotate_z_le h0 hquarter) hturned
  have hK : (0 : ℝ) ≤ cordicK bd := by cases bd <;> norm_num [cordicK]
  have hscale : (0 : ℝ) < scale bd .rad := by exact_mod_cast scale_pos bd .rad
  rify at h1 ⊢
  have hφ : |φ| ≤ Real.pi / 2 - δ :=
    le_of_mul_le_mul_right (hangle.trans (hgap.trans' (by gcongr))) (by positivity)
  have hcos := mul_le_mul_of_nonneg_left (le_cos_of_abs_le hδ hφ) (cordicUnit_nonneg bd)
  have hx : 1.6 * m ≤ (rotate bd theta).x := calc
    1.6 * m ≤ cordicGain (cordicN bd) * (cordicUnit bd * Real.cos φ - cordicN bd) :=
      mul_le_mul (cordicGain_bounds bd).1 (by linarith) hm (Real.sqrt_nonneg _)
    _ ≤ (rotate bd theta).x := le_x_of_turnedBy hturned
  exact hlarge.trans_le (by gcongr)

theorem lengthCorrect_x_eq_zero_iff {bd : Build} {theta : Int} (h0 : 0 ≤ theta) (h1 : theta ≤ cHalfPi bd + 1) :
    lengthCorrect bd (rotate bd theta).x = 0 ↔ tanBandStart bd ≤ theta := by
  rcases le_or_gt (tanBandStart bd - 1) theta with hnear | hfar
  · exact lengthCorrect_x_eq_zero_iff_near hnear h1
  · have hx := cordicLC_lt_of_below_band (bd := bd) h0 (by omega)
    refine iff_of_false (fun hzero => ?_) (by omega)
    obtain ⟨-, hround, -⟩ := hzero ▸ lengthCorrect_isNearest bd (rotate bd theta).x
    rw [zero_mul, sub_zero, abs_of_pos (cordicLC_pos bd)] at hround
    linarith [le_abs_self ((rotate bd theta).x * cordicK bd)]

theorem cosine_eq_zero_iff (bd : Build) (phi : Int) : cosine bd phi = 0 ↔ TanPole bd (phi % cTwoPi bd) := by
  obtain ⟨h0, h1⟩ := unwind_theta_range bd phi
  have hsign : (unwind bd phi).scos ≠ 0 := by
    have := unwind_signs bd phi
    omega
  rw [tanPole_iff, ← lengthCorrect_x_eq_zero_iff h0 h1, cosine, mul_eq_zero, or_iff_right hsign]

/-! ## The tangent -/

theorem abs_tangent_le {bd : Build} {phi : Int} (hcos : cosine bd phi ≠ 0) :
    |rdivs (sine bd phi * sNum bd) (cosine bd phi)| ≤ sNum bd * sNum bd := by
  apply abs_le_of_isNearest (rdivs_isNearest _ hcos)
  rw [abs_mul, abs_of_pos (sNum_pos bd)]
  have hone : 1 ≤ |cosine bd phi| := Int.one_le_abs hcos
  nlinarith [abs_sine_le bd phi, sNum_pos bd]

/-- Settles O40: the bands are the zeros of the rounded cosine, and outside them the quotient is at most the square of
1.0. -/
theorem tanDividesSineByCosineOrFaults : Obligations.TanDividesSineByCosineOrFaults := by
  intro s
  have hzero := cosine_eq_zero_iff s.build s.a.toInt
  refine ⟨_, _, exec_sincos s, ?_, fun hpole => ?_, fun hpole => ?_⟩
  · rw [toInt_wrap16_cosine]
    exact hzero
  · have hcos := mt hzero.mp hpole
    refine ⟨_, ?_, (exec_tan s).trans (if_neg hcos)⟩
    rw [toInt_wrap16_sine, toInt_wrap16_cosine, scale_num, toInt_wrap16_of_abs_le (abs_tangent_le hcos)]
    exact rdivs_isNearest _ hcos
  · exact (exec_tan s).trans (if_pos (hzero.mpr hpole))

end Sys2Proof.Machine
end

section
/-! PROOFS. The meanings of ASIN, ACOS, ATAN and ATAN2 (44_inverse_trig.md R180 to R186), and what follows from their
shape alone: the run of the vectoring kernel, the regions of ATAN2, and oddness. -/

namespace Sys2Proof.Machine

/-! ## The run of the kernel (R180) -/

/-- The accumulated angle is that of the operands taken through one iteration per table entry. -/
theorem vec_seq (bd : Build) (x y : Int) :
    ∃ c : Nat → Cordic, c 0 = { x := x, y := y, z := 0 } ∧
      (∀ i < cordicN bd, c (i + 1) = vecStep i ((cordicTable bd).getD i 0) (c i)) ∧
      vec bd x y = rdiv (c (cordicN bd)).z (2 ^ ash bd) := by
  obtain ⟨c, hfirst, hsteps, hlast⟩ := vecLoop_seq (cordicTable bd) 0 { x := x, y := y, z := 0 }
  rw [cordicTable_length] at hsteps hlast
  exact ⟨c, hfirst, by simpa only [Nat.zero_add] using hsteps, by rw [vec, hlast]⟩

theorem vec_isVectoring (bd : Build) (x y : Int) : IsVectoring bd x y (vec bd x y) := by
  obtain ⟨c, hfirst, hsteps, hvec⟩ := vec_seq bd x y
  refine ⟨fun i => (c i).x, fun i => (c i).y, fun i => (c i).z, congrArg Cordic.x hfirst, congrArg Cordic.y hfirst,
    congrArg Cordic.z hfirst, fun i hi => ?_, hvec ▸ rdiv_isNearest _ (by positivity)⟩
  rw [← cordicTable_eq_printed]
  simp only [hsteps i hi]
  rcases vecStep_cases i ((cordicTable bd).getD i 0) (c i) with ⟨hy, hstep⟩ | ⟨hy, hstep⟩ <;> rw [hstep]
  · exact .inl ⟨hy, rfl, rfl, rfl⟩
  · exact .inr ⟨hy, rfl, rfl, rfl⟩

/-- Every iteration adds or subtracts its entry, so the angle never exceeds the sum of the entries. -/
theorem abs_vecLoop_z_le {ts : List Int} (hts : ∀ t ∈ ts, 0 ≤ t) (i : Nat) (v : Cordic) :
    |(vecLoop ts i v).z| ≤ |v.z| + ts.sum := by
  induction ts generalizing i v with
  | nil => simp [vecLoop]
  | cons t ts ih =>
    obtain ⟨ht, hts⟩ := List.forall_mem_cons.mp hts
    have hstep : |(vecStep i t v).z| ≤ |v.z| + t := by
      rcases vecStep_cases i t v with ⟨-, hstep⟩ | ⟨-, hstep⟩ <;> rw [hstep]
      · simpa only [abs_of_nonneg ht] using abs_add_le v.z t
      · simpa only [abs_of_nonneg ht] using abs_sub v.z t
    calc |(vecLoop ts (i + 1) (vecStep i t v)).z| ≤ |(vecStep i t v).z| + ts.sum := ih hts _ _
      _ ≤ |v.z| + (t :: ts).sum := by rw [List.sum_cons]; omega

/-- Whatever the operands, the kernel returns at most half a circle: all the entries together are less. -/
theorem abs_vec_le (bd : Build) (x y : Int) : |vec bd x y| ≤ cPi bd := by
  have hz := abs_vecLoop_z_le (ts := cordicTable bd) (by cases bd <;> decide) 0 { x := x, y := y, z := 0 }
  apply abs_le_of_isNearest (rdiv_isNearest _ (by positivity))
  rw [abs_of_pos (by positivity : (0 : Int) < 2 ^ ash bd)]
  cases bd <;> norm_num [cordicTable, cordicTableDec, cordicTableBin, cPi, ash] at hz ⊢ <;> omega

/-- A whole circle fits a register. -/
theorem toInt_wrap16_of_abs_le_circle {bd : Build} {v : Int} (hv : |v| ≤ 2 * cPi bd) : (wrap16 v).toInt = v := by
  have hfits : ¬ OutOfRange v := by
    rw [abs_le] at hv
    unfold OutOfRange
    cases bd <;> simp only [cPi] at hv <;> omega
  exact s16_wrap16_of_fits hfits

theorem cHalfPi_bounds (bd : Build) : 0 ≤ cHalfPi bd ∧ cHalfPi bd ≤ cPi bd := by cases bd <;> decide

/-! ## The angles of the commands -/

theorem arctangent_eq (bd : Build) (a : Int) :
    arctangent bd a =
      if a < 0 then -vec bd (sNum bd * 4096) (|a| * 4096) else vec bd (sNum bd * 4096) (|a| * 4096) := by
  simp [arctangent, shl]

theorem arcsine_eq (bd : Build) (a : Int) :
    arcsine bd a =
      if a < 0 then -vec bd (cofac bd a * 16) (|a| * 4096) else vec bd (cofac bd a * 16) (|a| * 4096) := by
  simp [arcsine, shl]

theorem arccosine_of_pos (bd : Build) {a : Int} (ha : 0 < a) :
    arccosine bd a = vec bd (a * 4096) (cofac bd a * 16) := if_pos ha

theorem arccosine_of_nonpos (bd : Build) {a : Int} (ha : a ≤ 0) :
    arccosine bd a = cHalfPi bd + vec bd (cofac bd a * 16) (-a * 4096) := if_neg ha.not_gt

theorem abs_signed (a t : Int) : |if a < 0 then -t else t| = |t| := by split <;> simp

/-- An angle of the kernel fits a register with either sign. -/
theorem toInt_wrap16_signed_vec (bd : Build) (a x y : Int) :
    (wrap16 (if a < 0 then -vec bd x y else vec bd x y)).toInt = if a < 0 then -vec bd x y else vec bd x y := by
  apply toInt_wrap16_of_abs_le_circle (bd := bd)
  rw [abs_signed]
  linarith [abs_vec_le bd x y, abs_nonneg (vec bd x y)]

theorem toInt_wrap16_arctangent (bd : Build) (a : Int) : (wrap16 (arctangent bd a)).toInt = arctangent bd a := by
  rw [arctangent_eq]
  exact toInt_wrap16_signed_vec _ _ _ _

theorem toInt_wrap16_arcsine (bd : Build) (a : Int) : (wrap16 (arcsine bd a)).toInt = arcsine bd a := by
  rw [arcsine_eq]
  exact toInt_wrap16_signed_vec _ _ _ _

theorem toInt_wrap16_arccosine (bd : Build) (a : Int) : (wrap16 (arccosine bd a)).toInt = arccosine bd a := by
  have hhalf := cHalfPi_bounds bd
  apply toInt_wrap16_of_abs_le_circle (bd := bd)
  rcases lt_or_ge 0 a with ha | ha
  · rw [arccosine_of_pos bd ha]
    have := abs_vec_le bd (a * 4096) (cofac bd a * 16)
    omega
  · rw [arccosine_of_nonpos bd ha]
    have := abs_vec_le bd (cofac bd a * 16) (-a * 4096)
    rw [abs_le] at *
    omega

/-- The four regions of R186: together they are all of the plane but the origin. -/
theorem arctangent2_cases (bd : Build) {y x : Int} (h : ¬ (y = 0 ∧ x = 0)) :
    ((0 ≤ y ∧ 0 < x) ∧ arctangent2 bd y x = vec bd (x * 4096) (y * 4096)) ∨
    ((0 < y ∧ x ≤ 0 ∨ y = 0 ∧ x < 0) ∧ arctangent2 bd y x = cHalfPi bd + vec bd (y * 4096) (-x * 4096)) ∨
    ((y < 0 ∧ x < 0) ∧ arctangent2 bd y x = vec bd (-x * 4096) (-y * 4096) - cPi bd) ∨
    ((y < 0 ∧ 0 ≤ x) ∧ arctangent2 bd y x = vec bd (-y * 4096) (x * 4096) - cHalfPi bd) := by
  unfold arctangent2
  split
  · exact .inl ⟨‹_›, rfl⟩
  split
  · exact .inr (.inl ⟨‹_›, rfl⟩)
  split
  · exact .inr (.inr (.inl ⟨‹_›, rfl⟩))
  · exact .inr (.inr (.inr ⟨by omega, rfl⟩))

theorem toInt_wrap16_arctangent2 (bd : Build) {y x : Int} (h : ¬ (y = 0 ∧ x = 0)) :
    (wrap16 (arctangent2 bd y x)).toInt = arctangent2 bd y x := by
  have hvec := fun p q => abs_le.mp (abs_vec_le bd p q)
  have hhalf := cHalfPi_bounds bd
  apply toInt_wrap16_of_abs_le_circle (bd := bd)
  rw [abs_le]
  rcases arctangent2_cases bd h with ⟨-, heq⟩ | ⟨-, heq⟩ | ⟨-, heq⟩ | ⟨-, heq⟩
  · have := hvec (x * 4096) (y * 4096)
    omega
  · have := hvec (y * 4096) (-x * 4096)
    omega
  · have := hvec (-x * 4096) (-y * 4096)
    omega
  · have := hvec (-y * 4096) (x * 4096)
    omega

/-! ## The commands' meanings -/

theorem exec_atan (s : State) : exec .atan s = .next { s with r := wrap16 (arctangent s.build s.a.toInt) } := rfl

/-- ASIN is one choice: `DOMAIN` outside -1.0 .. 1.0, else the angle (R183). -/
theorem exec_asin (s : State) :
    exec .asin s =
      if sNum s.build < |s.a.toInt| then .next (afterFault s 2)
      else .next { s with r := wrap16 (arcsine s.build s.a.toInt) } := by
  rw [← faultNext_domain, ← Int.natCast_natAbs]
  rfl

/-- ACOS is the same choice (R184). -/
theorem exec_acos (s : State) :
    exec .acos s =
      if sNum s.build < |s.a.toInt| then .next (afterFault s 2)
      else .next { s with r := wrap16 (arccosine s.build s.a.toInt) } := by
  rw [← faultNext_domain, ← Int.natCast_natAbs]
  rfl

/-- ATAN2 is one choice: `DOMAIN` for the origin, else the angle (R186). -/
theorem exec_atan2 (s : State) :
    exec .atan2 s =
      if s.b.toInt = 0 ∧ s.a.toInt = 0 then .next (afterFault s 2)
      else .next { s with r := wrap16 (arctangent2 s.build s.a.toInt s.b.toInt) } := by
  rw [← faultNext_domain]
  rfl

/-! ## The statements -/

/-- Settles O43: the kernel's run meets its relation, and the angle fits the register. -/
theorem atanRunsTheVectoring : Obligations.AtanRunsTheVectoring := fun s =>
  ⟨_, _, vec_isVectoring _ _ _, (toInt_wrap16_arctangent _ _).trans (arctangent_eq _ _), exec_atan s⟩

/-- Settles O44: both commands run the kernel on the operand and its cofactor, ACOS with the legs exchanged for a
positive operand. -/
theorem asinAndAcosSolveTheTriangle : Obligations.AsinAndAcosSolveTheTriangle := by
  intro s
  simp only [scale_num, exec_asin, exec_acos]
  refine ⟨fun hdomain => ?_, fun houtside => ⟨if_pos houtside, if_pos houtside⟩⟩
  simp only [if_neg hdomain.not_gt]
  have hasin := (toInt_wrap16_arcsine s.build s.a.toInt).trans (arcsine_eq _ _)
  have hacos := toInt_wrap16_arccosine s.build s.a.toInt
  rcases lt_or_ge 0 s.a.toInt with hpos | hnonpos
  · exact ⟨_, _, _, _, _, cofac_spec _ hdomain, vec_isVectoring _ _ _, hasin, rfl,
      fun _ => ⟨vec_isVectoring _ _ _, hacos.trans (arccosine_of_pos _ hpos)⟩, fun h => absurd hpos h.not_gt, rfl⟩
  · exact ⟨_, _, _, _, _, cofac_spec _ hdomain, vec_isVectoring _ _ _, hasin, rfl,
      fun h => absurd h hnonpos.not_gt,
      fun _ => ⟨vec_isVectoring _ _ _, hacos.trans (arccosine_of_nonpos _ hnonpos)⟩, rfl⟩

/-- Settles O47: each region is one case of the angle, and its value fits the register. -/
theorem atan2ResolvesTheFullCircleOrFaults : Obligations.Atan2ResolvesTheFullCircleOrFaults := by
  intro s
  rw [exec_atan2]
  refine ⟨fun horigin => ?_, fun ⟨hy, hx⟩ => if_pos ⟨hx, hy⟩⟩
  rw [if_neg fun h => horigin h.symm]
  have hfits := toInt_wrap16_arctangent2 s.build horigin
  rcases arctangent2_cases s.build horigin with ⟨_, hvalue⟩ | ⟨_, hvalue⟩ | ⟨_, hvalue⟩ | ⟨_, hvalue⟩
  · exact ⟨_, _, fun _ => ⟨vec_isVectoring _ _ _, hfits.trans hvalue⟩, fun _ => by omega, fun _ => by omega,
      fun _ => by omega, rfl⟩
  · exact ⟨_, _, fun _ => by omega, fun _ => ⟨vec_isVectoring _ _ _, hfits.trans hvalue⟩, fun _ => by omega,
      fun _ => by omega, rfl⟩
  · exact ⟨_, _, fun _ => by omega, fun _ => by omega, fun _ => ⟨vec_isVectoring _ _ _, hfits.trans hvalue⟩,
      fun _ => by omega, rfl⟩
  · exact ⟨_, _, fun _ => by omega, fun _ => by omega, fun _ => by omega,
      fun _ => ⟨vec_isVectoring _ _ _, hfits.trans hvalue⟩, rfl⟩

/-! ## Oddness (R181) -/

/-- A magnitude's angle, given the sign of its operand, is odd wherever the angle of 0 is 0. -/
theorem signed_neg {a t : Int} (hzero : a = 0 → t = 0) :
    (if -a < 0 then -t else t) = -(if a < 0 then -t else t) := by
  split <;> split <;> omega

theorem arctangent_neg (bd : Build) (a : Int) : arctangent bd (-a) = -arctangent bd a := by
  rw [arctangent_eq, arctangent_eq, abs_neg]
  refine signed_neg fun ha => ?_
  subst ha
  cases bd <;> decide

theorem cofac_neg (bd : Build) (a : Int) : cofac bd (-a) = cofac bd a := by simp [cofac]

theorem arcsine_neg (bd : Build) (a : Int) : arcsine bd (-a) = -arcsine bd a := by
  rw [arcsine_eq, arcsine_eq, cofac_neg, abs_neg]
  refine signed_neg fun ha => ?_
  subst ha
  cases bd <;> decide

/-- The two ends of the range are one step apart in magnitude, but not in angle (R185). -/
theorem arctangent_neg_32768 (bd : Build) : arctangent bd (-32768) = -arctangent bd 32767 := by cases bd <;> decide

/-- Settles O46: both angles are odd functions, and ATAN's two ends are evaluated. -/
theorem atanAndAsinAreOdd : Obligations.AtanAndAsinAreOdd := by
  intro s s' hbuild
  constructor
  · intro hoperands
    refine ⟨_, _, ?_, exec_atan s, exec_atan s'⟩
    rw [toInt_wrap16_arctangent, toInt_wrap16_arctangent, hbuild]
    rcases hoperands with hneg | ⟨hmax, hmin⟩
    · rw [hneg, arctangent_neg]
    · rw [hmax, hmin, arctangent_neg_32768]
  · rintro ⟨hneg, hdomain⟩
    have hdomain' : |s'.a.toInt| ≤ sNum s'.build := by rwa [hneg, abs_neg, hbuild]
    refine ⟨_, _, ?_, (exec_asin s).trans (if_neg hdomain.not_gt), (exec_asin s').trans (if_neg hdomain'.not_gt)⟩
    rw [toInt_wrap16_arcsine, toInt_wrap16_arcsine, hbuild, hneg, arcsine_neg]

end Sys2Proof.Machine
end

section
/-! PROOFS. The accuracy of the vectoring kernel (44_inverse_trig.md R180), by the error analysis of the rotation
kernel: after `n` iterations the vector is the start vector turned to some direction and stretched by the gain, up to an
error of `n` gains. The sign of `y` is then the sign of that direction up to a small angle, so the angle still to come
converges as the residual of the rotation kernel does, and the angle accumulated is the start vector's argument. -/

namespace Sys2Proof.Machine

/-! ## One iteration -/

/-- Both branches of an iteration are one formula in the direction of rotation, which is against `y`'s sign (R180). -/
theorem vecStep_eq_directed (i : Nat) (t : Int) (v : Cordic) :
    ∃ σ : Int, (σ = 1 ∨ σ = -1) ∧ σ * v.y ≤ 0 ∧
      vecStep i t v = { x := v.x - σ * (v.y / 2 ^ i), y := v.y + σ * (v.x / 2 ^ i), z := v.z - σ * t } := by
  rcases vecStep_cases i t v with ⟨hy, hstep⟩ | ⟨hy, hstep⟩
  · exact ⟨-1, .inr rfl, by omega, by simp [hstep, ← sub_eq_add_neg]⟩
  · exact ⟨1, .inl rfl, by omega, by simp [hstep]⟩

theorem cordicGain_pos (n : Nat) : 0 < cordicGain n := Real.sqrt_pos.mpr (Finset.prod_pos fun i _ => by positivity)

theorem arctan_two_pow_bounds (n : Nat) : 0 ≤ Real.arctan (1 / 2 ^ n) ∧ Real.arctan (1 / 2 ^ n) ≤ Real.pi / 4 := by
  refine ⟨Real.arctan_nonneg.mpr (by positivity), ?_⟩
  rw [← Real.arctan_one]
  exact Real.arctan_mono (div_le_one_of_le₀ (one_le_pow₀ one_le_two) (by positivity))

/-- What the convergence condition says of one entry and of those after it. -/
theorem ResidualConverges.entry_bounds {last : Int} {ts : List Int} (h : ResidualConverges last ts) {i : Nat}
    (hi : i < ts.length) :
    0 ≤ ts.getD i 0 ∧ ts.getD i 0 ≤ last + (ts.drop (i + 1)).sum ∧
      (ts.drop i).sum = ts.getD i 0 + (ts.drop (i + 1)).sum := by
  induction ts generalizing i with
  | nil => simp at hi
  | cons t ts ih =>
    obtain ⟨hnonneg, hsum, hconv⟩ := h
    cases i with
    | zero => simpa using ⟨hnonneg, hsum⟩
    | succ i => simpa using ih hconv (by simpa using hi)

/-- The scale of the kernel's internal angles (R160). -/
def angleScale (bd : Build) : Int := scale bd .rad * 2 ^ ash bd

theorem angleScale_bounds (bd : Build) : (64000 : ℝ) ≤ angleScale bd ∧ (angleScale bd : ℝ) ≤ 65536 := by
  cases bd <;> norm_num [angleScale, sRad, ash]

/-! ## The invariant of the run -/

/-- `v` is what `n` iterations from the vector `p` may leave, the exact vector now pointing in direction `ψ`. -/
structure VectoredTo (bd : Build) (p : ℂ) (n : Nat) (v : Cordic) (ψ : ℝ) : Prop where
  /-- The vector is within `n` gains of the exact one. -/
  point : ‖v.point - cordicGain n * (‖p‖ * Complex.exp (ψ * Complex.I))‖ ≤ n * cordicGain n
  /-- The angle is what the direction has lost, up to the rounding of the table. -/
  angle : |(p.arg - ψ) * angleScale bd - v.z| ≤ n / 2
  /-- The direction stays in the right half plane, where the sign of `y` is its sign. -/
  side : |ψ| ≤ Real.pi / 2
  /-- The angle still to come is within 20 of what the remaining entries can add. -/
  rest : |p.arg * angleScale bd - v.z| ≤ 20 + ((cordicTable bd).drop n).sum

theorem vectoredTo_start (bd : Build) {x y : Int} (hx : 0 ≤ x) :
    VectoredTo bd ⟨x, y⟩ 0 { x := x, y := y, z := 0 } (Complex.arg ⟨x, y⟩) := by
  have hx' : (0 : ℝ) ≤ x := by exact_mod_cast hx
  have harg : |Complex.arg ⟨x, y⟩| ≤ Real.pi / 2 := Complex.abs_arg_le_pi_div_two_iff.mpr hx'
  refine ⟨?_, by simp, harg, ?_⟩
  · rw [Complex.norm_mul_exp_arg_mul_I]
    simp [Cordic.point, cordicGain]
  · obtain ⟨hlow, hhigh⟩ := angleScale_bounds bd
    have hentries : (111566 : ℝ) ≤ (cordicTable bd).sum := by
      cases bd <;> norm_num [cordicTable, cordicTableDec, cordicTableBin]
    calc |Complex.arg ⟨x, y⟩ * angleScale bd - (0 : Int)| = |Complex.arg ⟨x, y⟩| * angleScale bd := by
          rw [Int.cast_zero, sub_zero, abs_mul, abs_of_nonneg (by linarith : (0 : ℝ) ≤ angleScale bd)]
      _ ≤ Real.pi / 2 * 65536 := by gcongr
      _ ≤ 20 + ((cordicTable bd).drop 0).sum := by rw [List.drop_zero]; linarith [Real.pi_lt_d6]

/-- The exact direction lies on the side of the axis that `y` shows, up to the vector's error against its length. -/
theorem sin_direction_le {bd : Build} {p : ℂ} {n : Nat} {v : Cordic} {ψ : ℝ} {σ : Int} (hσ : σ = 1 ∨ σ = -1)
    (hy : σ * v.y ≤ 0) (h : VectoredTo bd p n v ψ) : Real.sin (σ * ψ) * ‖p‖ ≤ n := by
  have him := (Complex.abs_im_le_norm _).trans h.point
  rw [Complex.sub_im, Complex.im_ofReal_mul, Complex.im_ofReal_mul, Complex.exp_ofReal_mul_I_im, Cordic.point,
    abs_le] at him
  have hy' : (σ * v.y : ℝ) ≤ 0 := by exact_mod_cast hy
  refine le_of_mul_le_mul_left ?_ (cordicGain_pos n)
  rcases hσ with rfl | rfl <;> push_cast at hy' ⊢
  · rw [one_mul] at hy' ⊢
    linarith
  · rw [neg_one_mul] at hy' ⊢
    rw [Real.sin_neg]
    linarith

/-- For a vector of the length the commands form, that is a small angle. -/
theorem direction_le {bd : Build} {p : ℂ} {n : Nat} {v : Cordic} {ψ : ℝ} {σ : Int} (hp : 400000 ≤ ‖p‖)
    (hn : n ≤ 14) (hσ : σ = 1 ∨ σ = -1) (hy : σ * v.y ≤ 0) (h : VectoredTo bd p n v ψ) : σ * ψ ≤ 1 / 16384 := by
  have hsin := sin_direction_le hσ hy h
  have hψ := h.side
  have hτ : σ * ψ ≤ Real.pi / 2 := by
    rw [abs_le] at hψ
    rcases hσ with rfl | rfl <;> push_cast <;> linarith
  generalize (σ : ℝ) * ψ = τ at *
  rcases le_or_gt τ 0 with hneg | hpos
  · linarith
  · have hn' : (n : ℝ) ≤ 14 := by exact_mod_cast hn
    have hjordan : 2 / Real.pi * τ ≤ Real.sin τ := Real.mul_le_sin hpos.le hτ
    have hlength : Real.sin τ * 400000 ≤ Real.sin τ * ‖p‖ :=
      mul_le_mul_of_nonneg_left hp (Real.sin_nonneg_of_nonneg_of_le_pi hpos.le (by linarith))
    have hpi : 1 / 1.6 ≤ 2 / Real.pi := by
      rw [div_le_div_iff₀ (by norm_num) Real.pi_pos]
      linarith [Real.pi_lt_d6]
    nlinarith

/-- An iteration in direction `σ` turns the exact vector by the arctangent of `2⁻ⁿ`, and adds one gain to the error. -/
theorem norm_point_directed_le {v : Cordic} {n : Nat} {ρ : ℂ} {ψ : ℝ} {σ z : Int} (hσ : σ = 1 ∨ σ = -1)
    (hpoint : ‖v.point - cordicGain n * (ρ * Complex.exp (ψ * Complex.I))‖ ≤ n * cordicGain n) :
    ‖(⟨v.x - σ * (v.y / 2 ^ n), v.y + σ * (v.x / 2 ^ n), z⟩ : Cordic).point -
        cordicGain (n + 1) * (ρ * Complex.exp ((ψ + σ * Real.arctan (1 / 2 ^ n) : ℝ) * Complex.I))‖ ≤
      (n + 1 : Nat) * cordicGain (n + 1) := by
  have habs : |(σ : ℝ)| = 1 := by rcases hσ with rfl | rfl <;> simp
  have hgain : cordicGain (n + 1) = cordicGain n * √(1 + (σ * (1 / 2 ^ n)) ^ 2) := by
    rw [cordicGain_succ, mul_pow, ← sq_abs (σ : ℝ), habs, one_pow, one_mul]
  have harctan : σ * Real.arctan (1 / 2 ^ n) = Real.arctan (σ * (1 / 2 ^ n)) := by
    rcases hσ with rfl | rfl <;> simp [Real.arctan_neg]
  rw [hgain, harctan]
  refine norm_sub_turned_le ?_ hpoint (hgain ▸ sqrt_two_le_cordicGain_succ n)
  simpa [Cordic.point] using norm_shift_error_le habs (abs_shift_error v.x n) (abs_shift_error v.y n)

theorem vectoredTo_vecStep {bd : Build} {p : ℂ} {n : Nat} {v : Cordic} {ψ : ℝ} (hp : 400000 ≤ ‖p‖)
    (hn : n < cordicN bd) (h : VectoredTo bd p n v ψ) :
    ∃ ψ', VectoredTo bd p (n + 1) (vecStep n ((cordicTable bd).getD n 0) v) ψ' := by
  obtain ⟨σ, hσ, hy, hstep⟩ := vecStep_eq_directed n ((cordicTable bd).getD n 0) v
  have hn14 : n ≤ 14 := Nat.lt_succ_iff.mp (hn.trans_le (by cases bd <;> decide))
  have hsmall := direction_le hp hn14 hσ hy h
  obtain ⟨hpoint, hangle, hside, hrest⟩ := h
  obtain ⟨hα, hα_le⟩ := arctan_two_pow_bounds n
  refine ⟨ψ + σ * Real.arctan (1 / 2 ^ n), hstep ▸ norm_point_directed_le hσ hpoint, ?angle, ?side, ?rest⟩
  case side =>
    rw [abs_le] at hside ⊢
    have hpi := Real.pi_gt_d6
    rcases hσ with rfl | rfl <;> push_cast at hsmall ⊢ <;> constructor <;> linarith
  case angle =>
    have hround := cordicTable_getD_rounded bd hn
    have hscale : (scale bd .rad * 2 ^ ash bd : ℝ) = angleScale bd := by simp [angleScale]
    rw [hscale, abs_lt] at hround
    rw [hstep]
    generalize (cordicTable bd).getD n 0 = t at *
    rw [abs_le] at hangle ⊢
    rcases hσ with rfl | rfl <;> push_cast <;> constructor <;> linarith
  case rest =>
    have hentry := (cordicTable_residualConverges bd).entry_bounds ((cordicTable_length bd).symm ▸ hn)
    -- At most 4 + 7 units are on the wrong side of the axis; on the right side the entry is subtracted from the rest.
    have hbackward : σ * ψ * angleScale bd ≤ 4 := by nlinarith [angleScale_bounds bd]
    have hn' : (n : ℝ) ≤ 14 := by exact_mod_cast hn14
    rw [hstep]
    generalize (cordicTable bd).getD n 0 = t at *
    obtain ⟨ht, ht_le, hsum⟩ := hentry
    rw [hsum] at hrest
    generalize ((cordicTable bd).drop (n + 1)).sum = later at *
    rify at ht ht_le
    push_cast at hrest ⊢
    rw [abs_le] at hangle hrest ⊢
    rcases hσ with rfl | rfl <;> push_cast at hbackward ⊢ <;> constructor <;> linarith

/-! ## The accumulated angle -/

theorem le_norm_of_le_sq {x y : Int} (h : 400000 ^ 2 ≤ x ^ 2 + y ^ 2) : 400000 ≤ ‖(⟨x, y⟩ : ℂ)‖ := by
  refine (sq_le_sq₀ (by norm_num) (norm_nonneg _)).mp ?_
  rw [← Complex.normSq_eq_norm_sq, Complex.normSq_mk, ← sq, ← sq]
  exact_mod_cast h

/-- Once all entries are used, the angle is within 20 of the start vector's argument at the internal scale. -/
theorem exists_vec_eq_rdiv_near_arg (bd : Build) {x y : Int} (hx : 0 ≤ x) (hp : 400000 ≤ ‖(⟨x, y⟩ : ℂ)‖) :
    ∃ z : Int, vec bd x y = rdiv z (2 ^ ash bd) ∧ |Complex.arg ⟨x, y⟩ * angleScale bd - z| ≤ 20 := by
  obtain ⟨c, hfirst, hsteps, hvec⟩ := vec_seq bd x y
  have hrun : ∀ n ≤ cordicN bd, ∃ ψ, VectoredTo bd ⟨x, y⟩ n (c n) ψ := by
    intro n hn
    induction n with
    | zero => exact ⟨_, hfirst ▸ vectoredTo_start bd hx⟩
    | succ n ih =>
      obtain ⟨ψ, hψ⟩ := ih (by omega)
      exact hsteps n hn ▸ vectoredTo_vecStep hp hn hψ
  obtain ⟨_, hlast⟩ := hrun _ le_rfl
  have hrest := hlast.rest
  rw [← cordicTable_length, List.drop_length, cordicTable_length] at hrest
  exact ⟨_, hvec, by simpa using hrest⟩

/-- `vec(x, y)` is the argument of the vector to within one unit of a stored angle (R180). -/
theorem abs_vec_sub_arg_lt (bd : Build) {x y : Int} (hx : 0 ≤ x) (hlong : 400000 ^ 2 ≤ x ^ 2 + y ^ 2) :
    |(vec bd x y : ℝ) - Complex.arg ⟨x, y⟩ * scale bd .rad| < 1 := by
  obtain ⟨z, hvec, hz⟩ := exists_vec_eq_rdiv_near_arg bd hx (le_norm_of_le_sq hlong)
  obtain ⟨-, hround, -⟩ := hvec ▸ rdiv_isNearest z (by positivity : (0 : Int) < 2 ^ ash bd)
  rify at hround
  rw [abs_le] at hz
  rw [← abs_two, ← abs_mul, abs_two, abs_le] at hround
  rw [abs_lt]
  cases bd <;> norm_num [ash, angleScale, sRad] at hround hz ⊢ <;> constructor <;> linarith

theorem vec_nonneg (bd : Build) {x y : Int} (hx : 0 ≤ x) (hy : 0 ≤ y) (hlong : 400000 ^ 2 ≤ x ^ 2 + y ^ 2) :
    0 ≤ vec bd x y := by
  have hangle := abs_lt.mp (abs_vec_sub_arg_lt bd hx hlong)
  have hy' : (0 : ℝ) ≤ y := by exact_mod_cast hy
  have harg : 0 ≤ Complex.arg ⟨x, y⟩ := Complex.arg_nonneg_iff.mpr hy'
  have hscale : (0 : ℝ) < scale bd .rad := by exact_mod_cast scale_pos bd .rad
  have hlow : (-1 : ℝ) < vec bd x y := by nlinarith
  have : -1 < vec bd x y := by exact_mod_cast hlow
  omega

/-- A vector that is not too steep stays within the stored quarter turn. -/
theorem vec_le_cHalfPi (bd : Build) {x y : Int} (hx : 0 ≤ x) (hsteep : |y| ≤ 900 * x)
    (hlong : 400000 ^ 2 ≤ x ^ 2 + y ^ 2) : vec bd x y ≤ cHalfPi bd := by
  have hangle := abs_lt.mp (abs_vec_sub_arg_lt bd hx hlong)
  have hcos : ‖(⟨x, y⟩ : ℂ)‖ * Real.cos (Complex.arg ⟨x, y⟩) = x := Complex.norm_mul_cos_arg ⟨x, y⟩
  have hnorm : ‖(⟨x, y⟩ : ℂ)‖ ≤ |(x : ℝ)| + |(y : ℝ)| := Complex.norm_le_abs_re_add_abs_im ⟨x, y⟩
  rify at hx hsteep
  rw [abs_of_nonneg hx] at hnorm
  have hcos_ge : 1 ≤ 901 * Real.cos (Complex.arg ⟨x, y⟩) :=
    le_of_mul_le_mul_left (by linarith) (by linarith [le_norm_of_le_sq hlong] : 0 < ‖(⟨x, y⟩ : ℂ)‖)
  have hquarter : Complex.arg ⟨x, y⟩ ≤ Real.pi / 2 := Complex.arg_le_pi_div_two_iff.mpr (.inl hx)
  have hcos_le : Real.cos (Complex.arg ⟨x, y⟩) ≤ Real.pi / 2 - Complex.arg ⟨x, y⟩ := by
    rw [← Real.sin_pi_div_two_sub]
    exact Real.sin_le (by linarith)
  have hhigh : (vec bd x y : ℝ) < cHalfPi bd + 1 := by
    have hpi := Real.pi_lt_d6
    cases bd <;> norm_num [sRad, cHalfPi] at hangle ⊢ <;> linarith
  exact Int.lt_add_one_iff.mp (by exact_mod_cast hhigh)

end Sys2Proof.Machine
end

section
/-! PROOFS. What the kernel's accuracy says of the triangles of ASIN and ACOS: the ranges of R181, with the end points of
R183 and R184 evaluated. -/

namespace Sys2Proof.Machine

/-! ## The triangle -/

/-- The triangle's hypotenuse is 1.0, so its vector is long enough for the kernel's accuracy. -/
theorem triangle_long {bd : Build} {a c : Int} (h : IsCofactor bd a c) :
    400000 ^ 2 ≤ (c * 16) ^ 2 + (|a| * 4096) ^ 2 := by
  obtain ⟨hnonneg, hle, hlt⟩ := h
  rw [scale_num] at hle hlt
  rw [mul_pow |a|, sq_abs]
  have hc : c ≤ 32768 := by rcases sNum_cases bd with hS | hS <;> rw [hS] at hle <;> nlinarith [mul_self_nonneg a]
  rcases sNum_cases bd with hS | hS <;> rw [hS] at hlt <;> linarith

/-- Below 1.0 the cofactor is not small. -/
theorem le_cofactor_of_lt {bd : Build} {a c : Int} (ha : |a| < sNum bd) (h : IsCofactor bd a c) : 3000 ≤ c := by
  obtain ⟨hnonneg, -, hlt⟩ := h
  have hsq : a * a ≤ (sNum bd - 1) * (sNum bd - 1) := by
    rw [← abs_mul_abs_self]
    exact mul_self_le_mul_self (abs_nonneg a) (by omega)
  rw [scale_num] at hlt
  rcases sNum_cases bd with hS | hS <;> rw [hS] at hlt hsq <;> nlinarith

theorem inverse_endPoints (bd : Build) :
    (arcsine bd (sNum bd) = cHalfPi bd ∧ arccosine bd (sNum bd) = 0) ∧
    (arcsine bd (-sNum bd) = -cHalfPi bd ∧ arccosine bd (-sNum bd) = 2 * cHalfPi bd) ∧
    (arcsine bd 0 = 0 ∧ arccosine bd 0 = cHalfPi bd) := by
  cases bd <;> decide

/-! ## The ranges -/

theorem abs_arcsine_le {bd : Build} {a : Int} (ha : |a| ≤ sNum bd) : |arcsine bd a| ≤ cHalfPi bd := by
  have hhalf := (cHalfPi_bounds bd).1
  rcases ha.lt_or_eq with hlt | heq
  · have hcofactor := cofac_spec bd ha
    have hc := le_cofactor_of_lt hlt hcofactor
    have hlong := triangle_long hcofactor
    have hS := sNum_cases bd
    have habs := abs_nonneg a
    have hsteep : abs (|a| * 4096) ≤ 900 * (cofac bd a * 16) := by
      rw [abs_of_nonneg (by omega)]
      omega
    rw [arcsine_eq, abs_signed, abs_of_nonneg (vec_nonneg bd (by omega) (by omega) hlong)]
    exact vec_le_cHalfPi bd (by omega) hsteep hlong
  · obtain ⟨⟨hone, -⟩, ⟨hnegOne, -⟩, -⟩ := inverse_endPoints bd
    rcases (abs_eq (sNum_pos bd).le).mp heq with rfl | rfl
    · rw [hone, abs_of_nonneg hhalf]
    · rw [hnegOne, abs_neg, abs_of_nonneg hhalf]

/-- For operands that are not positive, ACOS is the quarter turn less ASIN. -/
theorem arccosine_eq_sub_arcsine (bd : Build) {a : Int} (ha : a ≤ 0) : arccosine bd a = cHalfPi bd - arcsine bd a := by
  rcases ha.lt_or_eq with hneg | rfl
  · rw [arccosine_of_nonpos bd ha, arcsine_eq, if_pos hneg, abs_of_neg hneg, sub_neg_eq_add]
  · obtain ⟨-, -, hasin, hacos⟩ := inverse_endPoints bd
    rw [hasin, hacos, sub_zero]

theorem arccosine_range {bd : Build} {a : Int} (ha : |a| ≤ sNum bd) :
    0 ≤ arccosine bd a ∧ arccosine bd a ≤ cPi bd := by
  rcases lt_or_ge 0 a with hpos | hnonpos
  · have hcofactor := cofac_spec bd ha
    rw [arccosine_of_pos bd hpos]
    have hlong := triangle_long hcofactor
    rw [abs_of_pos hpos, add_comm] at hlong
    obtain ⟨hnonneg, -, -⟩ := hcofactor
    exact ⟨vec_nonneg bd (by omega) (by omega) hlong, (abs_le.mp (abs_vec_le bd _ _)).2⟩
  · have hasin := abs_le.mp (abs_arcsine_le ha)
    have hcircle : 2 * cHalfPi bd ≤ cPi bd := by cases bd <;> decide
    rw [arccosine_eq_sub_arcsine bd hnonpos]
    omega

/-- Settles O45: the ranges by the kernel's accuracy, the end points by evaluation. -/
theorem asinAndAcosRangesAndEndPoints : Obligations.AsinAndAcosRangesAndEndPoints := by
  intro s hdomain
  rw [scale_num] at hdomain
  refine ⟨_, _, (exec_asin s).trans (if_neg hdomain.not_gt), (exec_acos s).trans (if_neg hdomain.not_gt), ?_⟩
  rw [toInt_wrap16_arcsine, toInt_wrap16_arccosine, scale_num]
  obtain ⟨hone, hnegOne, hzero⟩ := inverse_endPoints s.build
  obtain ⟨hlow, hhigh⟩ := arccosine_range hdomain
  exact ⟨abs_arcsine_le hdomain, hlow, hhigh, fun ha => ha ▸ hone, fun ha => ha ▸ hnegOne, fun ha => ha ▸ hzero⟩

end Sys2Proof.Machine
end

section
/-! PROOFS. ROOT, SQRT, ROOTOV and FACT (45_transcendental.md R212 to R216). Bisection brackets the target between the powers
of two neighbours; their sum is odd, so the nearer one is never tied, and every other candidate lies behind one of them. -/

namespace Sys2Proof.Machine

/-! ## The commands' meanings -/

/-- ROOT is one choice: `DOMAIN` for a negative radicand or `n < 1`, else the root (R213). -/
theorem exec_root (s : State) :
    exec .root s =
      if s.a.toInt < 0 ∨ s.b.toInt < 1 then .next (afterFault s 2)
      else .next { s with r := wrap16 (root s.build s.a.toInt.toNat s.b.toInt.toNat) } := by
  rw [← faultNext_domain]
  rfl

theorem exec_sqrt (s : State) :
    exec .sqrt s =
      if s.a.toInt < 0 then .next (afterFault s 2)
      else .next { s with r := wrap16 (root s.build s.a.toInt.toNat 2) } := by
  rw [← faultNext_domain]
  rfl

theorem exec_rootov (s : State) :
    exec .rootov s =
      if s.a.toInt < 0 ∨ s.b.toInt < 1 then .next (s.setOvf true)
      else .next (s.judge (root s.build s.a.toInt.toNat s.b.toInt.toNat)) := rfl

/-! ## The root (R212) -/

/-- What the powers of ROOT's candidates are compared with (R212). -/
def rootTarget (bd : Build) (a n : Nat) : Nat := a * (sNum bd).toNat ^ (n - 1)

theorem rootTarget_lt (bd : Build) {a n : Nat} (ha : a ≤ 32767) (hn : 1 ≤ n) : rootTarget bd a n < 32768 ^ n := by
  have hscale : (sNum bd).toNat ≤ 32768 := by cases bd <;> decide
  calc a * (sNum bd).toNat ^ (n - 1)
      ≤ a * 32768 ^ (n - 1) := Nat.mul_le_mul_left a (Nat.pow_le_pow_left hscale _)
    _ < 32768 * 32768 ^ (n - 1) := Nat.mul_lt_mul_of_pos_right (by omega) (by positivity)
    _ = 32768 ^ n := mul_pow_sub_one (by omega) 32768

/-- Of two neighbours one is odd, so their powers are not equally far from any integer. -/
theorem pow_add_succ_pow_ne_double (r t : Nat) {n : Nat} (hn : 1 ≤ n) : r ^ n + (r + 1) ^ n ≠ 2 * t := by
  have hodd : Odd (r ^ n + (r + 1) ^ n) := by
    simp [Nat.odd_add, Nat.odd_pow_iff, Nat.even_pow, Nat.even_add_one, show n ≠ 0 by omega]
  intro h
  exact Nat.not_odd_iff_even.mpr ⟨t, by omega⟩ hodd

/-- The bracket bisection finds, and which end of it is the root. -/
theorem root_cases (bd : Build) {a n : Nat} (ha : a ≤ 32767) (hn : 1 ≤ n) :
    ∃ lo ≤ 32767, lo ^ n ≤ rootTarget bd a n ∧ rootTarget bd a n < (lo + 1) ^ n ∧
      ((root bd a n = lo ∧ (lo < 32767 → 2 * rootTarget bd a n < lo ^ n + (lo + 1) ^ n)) ∨
        (root bd a n = lo + 1 ∧ lo < 32767 ∧ lo ^ n + (lo + 1) ^ n < 2 * rootTarget bd a n)) := by
  obtain ⟨hlo, hle, hlt⟩ := root_bisect_spec hn (rootTarget_lt bd ha hn)
  have hroot : root bd a n = let lo := bisect (fun r => decide (r ^ n ≤ rootTarget bd a n)) 15 0
      if lo < 32767 ∧ (lo + 1) ^ n - rootTarget bd a n < rootTarget bd a n - lo ^ n then lo + 1 else lo := rfl
  generalize bisect (fun r => decide (r ^ n ≤ rootTarget bd a n)) 15 0 = lo at *
  have htie := pow_add_succ_pow_ne_double lo (rootTarget bd a n) hn
  refine ⟨lo, hlo, hle, hlt, ?_⟩
  simp only at hroot
  split at hroot
  · exact .inr ⟨hroot, by omega, by omega⟩
  · exact .inl ⟨hroot, by omega⟩

theorem root_le (bd : Build) {a n : Nat} (ha : a ≤ 32767) (hn : 1 ≤ n) : root bd a n ≤ 32767 := by
  obtain ⟨lo, hlo, -, -, ⟨hroot, -⟩ | ⟨hroot, hlt, -⟩⟩ := root_cases bd ha hn <;> omega

/-- Every other candidate's power lies farther from the target (R212). -/
theorem root_nearest (bd : Build) {a n : Nat} (ha : a ≤ 32767) (hn : 1 ≤ n) {r : Nat} (hr : r ≤ 32767)
    (hne : r ≠ root bd a n) :
    |((root bd a n ^ n : Nat) : Int) - (rootTarget bd a n : Nat)| < |((r ^ n : Nat) : Int) - (rootTarget bd a n : Nat)| := by
  have hstrict {x y : Nat} (hxy : x < y) : x ^ n < y ^ n := Nat.pow_lt_pow_left hxy (by omega)
  have hmono {x y : Nat} (hxy : x ≤ y) : x ^ n ≤ y ^ n := Nat.pow_le_pow_left hxy n
  rw [abs_eq_max_neg, abs_eq_max_neg]
  obtain ⟨lo, hlo, hle, hlt, ⟨hroot, hnear⟩ | ⟨hroot, -, hnear⟩⟩ := root_cases bd ha hn
  · rw [hroot] at hne ⊢
    rcases hne.lt_or_gt with hbelow | habove
    · have := hstrict hbelow
      omega
    · have := hmono (show lo + 1 ≤ r from habove)
      have := hnear (by omega)
      omega
  · rw [hroot] at hne ⊢
    rcases hne.lt_or_gt with hbelow | habove
    · have := hmono (Nat.le_of_lt_succ hbelow)
      omega
    · have := hstrict habove
      omega

/-- A root always fits a register. -/
theorem toInt_wrap16_root (bd : Build) {a n : Nat} (ha : a ≤ 32767) (hn : 1 ≤ n) :
    (wrap16 (root bd a n)).toInt = root bd a n :=
  s16_wrap16_of_fits (by have := root_le bd ha hn; unfold OutOfRange; omega)

/-- The root in a register, said of its value as the claims do. -/
theorem wrap16_root_minimises (bd : Build) {a : Word} (ha : 0 ≤ a.toInt) {n : Nat} (hn : 1 ≤ n) :
    0 ≤ (wrap16 (root bd a.toInt.toNat n)).toInt ∧
      ∀ r : Int, 0 ≤ r → r ≤ 32767 → r ≠ (wrap16 (root bd a.toInt.toNat n)).toInt →
        |(wrap16 (root bd a.toInt.toNat n)).toInt ^ n - a.toInt * sNum bd ^ (n - 1)| <
          |r ^ n - a.toInt * sNum bd ^ (n - 1)| := by
  have htarget : ((rootTarget bd a.toInt.toNat n : Nat) : Int) = a.toInt * sNum bd ^ (n - 1) := by
    push_cast [rootTarget, Int.toNat_of_nonneg ha, Int.toNat_of_nonneg (sNum_pos bd).le]
    rfl
  rw [toInt_wrap16_root bd (toNat_toInt_le a) hn, ← htarget]
  refine ⟨Int.natCast_nonneg _, fun r h0 hr hne => ?_⟩
  lift r to Nat using h0
  exact_mod_cast root_nearest bd (toNat_toInt_le a) hn (by omega) (by omega)

/-- Settles O53: the operands' signs decide the two branches. -/
theorem rootIsTheUniqueMinimiserOrFaults : Obligations.RootIsTheUniqueMinimiserOrFaults := by
  intro s
  constructor
  · rintro ⟨ha, hb⟩
    obtain ⟨hnonneg, hleast⟩ := wrap16_root_minimises s.build ha (n := s.b.toInt.toNat) (by omega)
    exact ⟨_, hnonneg, hleast, (exec_root s).trans (if_neg (by omega))⟩
  · intro hinvalid
    exact (exec_root s).trans (if_pos hinvalid)

/-- ROOTOV compares `R` with the word ROOT writes, since the root fits it. -/
theorem judge_root (s : State) {a n : Nat} (ha : a ≤ 32767) (hn : 1 ≤ n) :
    s.judge (root s.build a n) = { s with ovf := decide (wrap16 (root s.build a n) ≠ s.r) } := by
  have hsame : (root s.build a n : Int) = s.r.toInt ↔ wrap16 (root s.build a n) = s.r := by
    rw [← BitVec.toInt_inj, toInt_wrap16_root s.build ha hn]
  simp only [judge_eq, ne_eq, hsame]

/-- Settles O54: SQRT and ROOT with `n = 2` write one root. -/
theorem sqrtIsTheSecondRootAndRootovJudges : Obligations.SqrtIsTheSecondRootAndRootovJudges := by
  intro s
  refine ⟨fun ha => ?_, fun ha => (exec_sqrt s).trans (if_pos ha), fun ⟨ha, hb⟩ => ?_,
    fun hinvalid => (exec_rootov s).trans (if_pos hinvalid)⟩
  · obtain ⟨hnonneg, hleast⟩ := wrap16_root_minimises s.build ha (n := 2) (by omega)
    have htwo : ¬ (s.a.toInt < 0 ∨ (2 : Word).toInt < 1) := by
      have : (2 : Word).toInt = 2 := rfl
      omega
    simp only [Nat.add_one_sub_one, pow_one] at hleast
    exact ⟨_, hnonneg, hleast, (exec_sqrt s).trans (if_neg ha.not_gt), (exec_root _).trans (if_neg htwo)⟩
  · have hvalid : ¬ (s.a.toInt < 0 ∨ s.b.toInt < 1) := by omega
    refine ⟨_, (exec_root s).trans (if_neg hvalid), ?_⟩
    rw [exec_rootov, if_neg hvalid, judge_root s (toNat_toInt_le s.a) (by omega)]

/-! ## The factorial (R216) -/

/-- `factorial` is the run of R216, read as a relation. -/
theorem factorial_isFactorialRun (bd : Build) {n : Nat} (hn : n ≤ 32767) :
    IsFactorialRun bd n (factorial bd n).acc (factorial bd n).ov := by
  rw [factorial_eq_narrowRun bd hn]
  exact ⟨fun j => (narrowRun factProduct 1 (sNum bd) j).acc, _, rfl,
    fun j _ => ⟨by push_cast [factProduct]; ring, narrowRun_step factProduct 1 (sNum bd) j⟩, rfl,
    narrowRun_ov_iff factProduct 1 (sNum bd) n⟩

/-- A factorial read back from `R` is the running product, since it fits. -/
theorem toInt_wrap16_factorial (bd : Build) {n : Nat} (hn : n ≤ 32767) :
    (wrap16 (factorial bd n).acc).toInt = (factorial bd n).acc := by
  rw [factorial_eq_narrowRun bd hn]
  exact s16_wrap16_of_fits (narrowRun_acc_fits _ 1 (sNum_fits bd) n)

/-- Settles O55: the operand's sign decides the two branches, and `factorial` is the run. -/
theorem factIsTheRunningProductOrFaults : Obligations.FactIsTheRunningProductOrFaults := by
  intro s
  constructor
  · intro ha
    refine ⟨_, _, ?_, (exec_fact s).trans (if_neg ha.not_gt)⟩
    rw [toInt_wrap16_factorial _ (toNat_toInt_le s.a)]
    exact factorial_isFactorialRun _ (toNat_toInt_le s.a)
  · intro ha
    exact (exec_fact s).trans (if_pos ha)

end Sys2Proof.Machine
end

section
/-! PROOFS. Rounded quotients (00_scope.md R17) in order: rounding keeps the order of the exact quotients, and a common
factor of numerator and denominator changes nothing. -/

namespace Sys2Proof.Machine

/-- Rounding moves by at most half a step upwards, and by less than that from zero down: a tie goes away from zero. -/
theorem le_of_isNearest {p d q : Int} (h : IsNearest p d q) (hd : 0 < d) :
    2 * p ≤ (2 * q + 1) * d ∧ (0 ≤ q → 2 * p < (2 * q + 1) * d) := by
  obtain ⟨-, hnear, htie⟩ := h
  rw [abs_of_pos hd] at hnear htie
  have habs := le_abs_self (p - q * d)
  refine ⟨by linarith, fun hq => lt_of_not_ge fun hge => ?_⟩
  have haway := htie (by linarith)
  rw [abs_of_nonneg (mul_nonneg hq hd.le)] at haway
  linarith [le_abs_self p]

/-- The same downwards, by negation. -/
theorem ge_of_isNearest {p d q : Int} (h : IsNearest p d q) (hd : 0 < d) :
    (2 * q - 1) * d ≤ 2 * p ∧ (q ≤ 0 → (2 * q - 1) * d < 2 * p) := by
  obtain ⟨hle, hlt⟩ := le_of_isNearest (isNearest_neg_num h) hd
  exact ⟨by linarith, fun hq => by linarith [hlt (by omega)]⟩

/-- The larger exact quotient is not rounded to a smaller integer. -/
theorem isNearest_mono {p d q p' d' q' : Int} (h : IsNearest p d q) (h' : IsNearest p' d' q') (hd : 0 < d) (hd' : 0 < d')
    (hle : p * d' ≤ p' * d) : q ≤ q' := by
  obtain ⟨hge, hgt⟩ := ge_of_isNearest h hd
  obtain ⟨hle', hlt'⟩ := le_of_isNearest h' hd'
  by_contra! hlt
  have hprod : 0 < d * d' := mul_pos hd hd'
  have hends : (2 * q' + 1) * (d * d') ≤ (2 * q - 1) * (d * d') := mul_le_mul_of_nonneg_right (by omega) hprod.le
  have hge := mul_le_mul_of_nonneg_right hge hd'.le
  have hle' := mul_le_mul_of_nonneg_right hle' hd.le
  rcases le_or_gt 0 q' with hq' | hq'
  · linarith [mul_lt_mul_of_pos_right (hlt' hq') hd]
  rcases le_or_gt q 0 with hq | hq
  · linarith [mul_lt_mul_of_pos_right (hgt hq) hd']
  · linarith [mul_pos (show 0 < 2 * q - 1 by omega) hprod, mul_neg_of_neg_of_pos (show 2 * q' + 1 < 0 by omega) hprod]

theorem rdiv_le_rdiv {p d p' d' : Int} (hd : 0 < d) (hd' : 0 < d') (hle : p * d' ≤ p' * d) : rdiv p d ≤ rdiv p' d' :=
  isNearest_mono (rdiv_isNearest p hd) (rdiv_isNearest p' hd') hd hd' hle

/-- A common factor does not change the rounded quotient. -/
theorem isNearest_mul_right {p d q : Int} (h : IsNearest p d q) {c : Int} (hc : 0 < c) : IsNearest (p * c) (d * c) q := by
  obtain ⟨hd, hnear, htie⟩ := h
  have habs (x : Int) : |x * c| = |x| * c := by rw [abs_mul, abs_of_pos hc]
  rw [IsNearest, ← mul_assoc q, ← sub_mul, habs, habs, habs, habs, ← mul_assoc]
  refine ⟨mul_ne_zero hd hc.ne', mul_le_mul_of_nonneg_right hnear hc.le, fun h => ?_⟩
  exact mul_le_mul_of_nonneg_right (htie (mul_right_cancel₀ hc.ne' h)) hc.le

end Sys2Proof.Machine
end

section
/-! PROOFS. LN, LOGB and LOG10 (45_transcendental.md R200 to R204). Every step of the reference logarithm keeps order, and an
octave's mantissa never exceeds ln 2, so the logarithm grows with its operand; its range, its zero and its distance from the
sentinel are then decided at a few operands. -/

namespace Sys2Proof.Machine

/-! ## The reference logarithm grows with its operand (R201) -/

/-- The Horner loop keeps order in the variable and in the value it starts from. -/
theorem lnSeries_le_lnSeries {u2 u2' : Int} (hu0 : 0 ≤ u2) (hu : u2 ≤ u2') {ds : List Int} (hds : ∀ d ∈ ds, 0 < d)
    {acc acc' : Int} (hacc0 : 0 ≤ acc) (hacc : acc ≤ acc') :
    0 ≤ lnSeries u2 ds acc ∧ lnSeries u2 ds acc ≤ lnSeries u2' ds acc' := by
  induction ds generalizing acc acc' with
  | nil => exact ⟨hacc0, hacc⟩
  | cons d ds ih =>
    rw [List.forall_mem_cons] at hds
    obtain ⟨hd, hds⟩ := hds
    have hterm : 0 ≤ asr (u2 * acc) 15 := Int.ediv_nonneg (by positivity) (by norm_num)
    have hcoefficient : 0 ≤ 32768 / d := Int.ediv_nonneg (by norm_num) hd.le
    have hstep : asr (u2 * acc) 15 ≤ asr (u2' * acc') 15 :=
      Int.ediv_le_ediv (by norm_num) (mul_le_mul hu hacc hacc0 (by omega))
    exact ih hds (by omega) (by omega)

/-- `(m - 1)/(m + 1)` at scale `2^15` (R201). -/
def lnRatio (m15 : Int) : Int := shl (m15 - 32768) 15 / (m15 + 32768)

/-- The logarithm of the mantissa at scale 65536 (R201). -/
def lnMantissa (m15 : Int) : Int :=
  asr (lnRatio m15 * lnSeries (asr (lnRatio m15 * lnRatio m15) 15) [9, 7, 5, 3, 1] (32768 / 11)) 13

/-- The reference logarithm is the mantissa's, shifted by the place of the top bit and the scale. -/
theorem ln16_eq (bd : Build) (n : Nat) :
    ln16 bd n = lnMantissa (shl n (15 - n.log2)) + n.log2 * ln2At16 - lnScaleAt16 bd := rfl

theorem lnRatio_le_lnRatio {m m' : Int} (hm : 32768 ≤ m) (hle : m ≤ m') :
    0 ≤ lnRatio m ∧ lnRatio m ≤ lnRatio m' := by
  have hquot : lnRatio m * (m + 32768) ≤ shl (m - 32768) 15 := Int.ediv_mul_le _ (by omega)
  constructor
  · exact Int.ediv_nonneg (by unfold shl; omega) (by omega)
  · refine (Int.le_ediv_iff_mul_le (by omega)).mpr ?_
    unfold shl at hquot ⊢
    have hone : lnRatio m ≤ 32768 := by nlinarith
    nlinarith

theorem lnMantissa_le_lnMantissa {m m' : Int} (hm : 32768 ≤ m) (hle : m ≤ m') : lnMantissa m ≤ lnMantissa m' := by
  obtain ⟨hu0, hu⟩ := lnRatio_le_lnRatio hm hle
  have hsq0 : 0 ≤ asr (lnRatio m * lnRatio m) 15 := Int.ediv_nonneg (by positivity) (by norm_num)
  have hsq : asr (lnRatio m * lnRatio m) 15 ≤ asr (lnRatio m' * lnRatio m') 15 :=
    Int.ediv_le_ediv (by norm_num) (mul_self_le_mul_self hu0 hu)
  obtain ⟨hs0, hs⟩ := lnSeries_le_lnSeries hsq0 hsq (ds := [9, 7, 5, 3, 1]) (by decide) (acc := 32768 / 11)
    (by decide) le_rfl
  exact Int.ediv_le_ediv (by norm_num) (mul_le_mul hu hs hs0 (by omega))

/-- An octave starts at 0 and ends no higher than ln 2. -/
theorem lnMantissa_ends : lnMantissa 32768 = 0 ∧ lnMantissa 65536 ≤ ln2At16 := by decide

/-- The top bit is a register's, and shifting it to bit 15 leaves a mantissa in [1, 2]. -/
theorem mantissa_range {n : Nat} (hn : 0 < n) (hhigh : n ≤ 32767) :
    n.log2 ≤ 14 ∧ 32768 ≤ shl n (15 - n.log2) ∧ shl n (15 - n.log2) ≤ 65536 := by
  have hlow := Nat.log2_self_le hn.ne'
  have hlt := Nat.lt_log2_self (n := n)
  have hp : n.log2 < 15 := (Nat.log2_lt hn.ne').mpr (by omega)
  have hsplit : 2 ^ n.log2 * 2 ^ (15 - n.log2) = 32768 := by rw [← pow_add, Nat.add_sub_of_le hp.le]; rfl
  have hscaled : 2 ^ n.log2 * 2 ^ (15 - n.log2) ≤ n * 2 ^ (15 - n.log2) := Nat.mul_le_mul_right _ hlow
  have hscaled' : n * 2 ^ (15 - n.log2) ≤ 2 ^ (n.log2 + 1) * 2 ^ (15 - n.log2) := Nat.mul_le_mul_right _ hlt.le
  rw [hsplit] at hscaled
  rw [pow_succ, mul_right_comm, hsplit] at hscaled'
  refine ⟨by omega, ?_, ?_⟩ <;> unfold shl <;> exact_mod_cast ‹_›

/-- Within an octave the mantissa decides; from one to the next, its end against ln 2. -/
theorem ln16_le_ln16 (bd : Build) {n n' : Nat} (hn : 0 < n) (hle : n ≤ n') (hhigh : n' ≤ 32767) :
    ln16 bd n ≤ ln16 bd n' := by
  obtain ⟨-, hlow, htop⟩ := mantissa_range hn (by omega)
  obtain ⟨-, hlow', -⟩ := mantissa_range (n := n') (by omega) hhigh
  obtain ⟨hzero, hone⟩ := lnMantissa_ends
  have hlog : n.log2 ≤ n'.log2 := (Nat.le_log2 (by omega)).mpr ((Nat.log2_self_le hn.ne').trans hle)
  rw [ln16_eq, ln16_eq]
  rcases hlog.lt_or_eq with hlt | heq
  · have hupper := lnMantissa_le_lnMantissa hlow htop
    have hlower := lnMantissa_le_lnMantissa le_rfl hlow'
    unfold ln2At16 at hone ⊢
    omega
  · have hshifted : shl n (15 - n.log2) ≤ shl n' (15 - n'.log2) := by
      rw [heq]
      exact Int.mul_le_mul_of_nonneg_right (by omega) (by positivity)
    have hmantissa := lnMantissa_le_lnMantissa hlow hshifted
    rw [heq] at hmantissa ⊢
    omega

/-! ## The logarithm LN writes (R202) -/

theorem naturalLog_of_pos (bd : Build) {a : Int} (ha : 0 < a) :
    naturalLog bd a = rdiv (ln16 bd a.toNat * sNum bd) 65536 := if_neg ha.not_ge

theorem naturalLog_of_nonpos (bd : Build) {a : Int} (ha : a ≤ 0) : naturalLog bd a = sent bd := if_pos ha

theorem naturalLog_le_naturalLog (bd : Build) {a a' : Int} (ha : 0 < a) (hle : a ≤ a') (hhigh : a' ≤ 32767) :
    naturalLog bd a ≤ naturalLog bd a' := by
  rw [naturalLog_of_pos bd ha, naturalLog_of_pos bd (ha.trans_le hle)]
  have hln := ln16_le_ln16 bd (n := a.toNat) (n' := a'.toNat) (by omega) (by omega) (by omega)
  have := mul_le_mul_of_nonneg_right hln (sNum_pos bd).le
  exact rdiv_le_rdiv (by norm_num) (by norm_num) (by omega)

/-- The logarithms of the smallest and the largest operand (R200). -/
theorem naturalLog_ends (bd : Build) :
    naturalLog bd 1 = (if bd = .dec then -461 else -621) ∧ naturalLog bd 32767 = (if bd = .dec then 579 else 710) := by
  cases bd <;> decide

/-- The logarithms of 1.0 and of its neighbours. -/
theorem naturalLog_near_one (bd : Build) :
    naturalLog bd (sNum bd - 1) < 0 ∧ naturalLog bd (sNum bd) = 0 ∧ 0 < naturalLog bd (sNum bd + 1) := by
  cases bd <;> decide

/-- LN(1.0) is 0, and no other logarithm is: the neighbours of 1.0 are already on either side of 0. -/
theorem naturalLog_eq_zero_iff (bd : Build) {a : Int} (ha : 0 < a) (hhigh : a ≤ 32767) :
    naturalLog bd a = 0 ↔ a = sNum bd := by
  obtain ⟨hbelow, hone, habove⟩ := naturalLog_near_one bd
  have hscale := sNum_cases bd
  refine ⟨fun hzero => ?_, fun h => h ▸ hone⟩
  rcases lt_trichotomy a (sNum bd) with hlt | heq | hgt
  · have := naturalLog_le_naturalLog bd ha (Int.le_sub_one_of_lt hlt) (by omega)
    omega
  · exact heq
  · have := naturalLog_le_naturalLog bd (by omega) (Int.add_one_le_of_lt hgt) hhigh
    omega

/-- LN of a positive operand stays in the range R200 names. -/
theorem naturalLog_range (bd : Build) {a : Int} (ha : 0 < a) (hhigh : a ≤ 32767) :
    (if bd = .dec then -461 else -621) ≤ naturalLog bd a ∧ naturalLog bd a ≤ (if bd = .dec then 579 else 710) := by
  obtain ⟨hsmallest, hlargest⟩ := naturalLog_ends bd
  rw [← hsmallest, ← hlargest]
  exact ⟨naturalLog_le_naturalLog bd one_pos ha hhigh, naturalLog_le_naturalLog bd ha hhigh le_rfl⟩

theorem abs_naturalLog_le (bd : Build) {a : Int} (ha : 0 < a) (hhigh : a ≤ 32767) : |naturalLog bd a| ≤ 710 := by
  obtain ⟨hlow, htop⟩ := naturalLog_range bd ha hhigh
  rw [abs_le]
  split_ifs at hlow htop <;> omega

theorem sent_cases (bd : Build) : sent bd = -9900 ∨ sent bd = -12672 := by cases bd <;> decide

/-- Only a non-positive operand has the sentinel for its logarithm (R202). -/
theorem naturalLog_eq_sent_iff (bd : Build) {a : Int} (hhigh : a ≤ 32767) : naturalLog bd a = sent bd ↔ a ≤ 0 := by
  refine ⟨fun hsent => ?_, naturalLog_of_nonpos bd⟩
  by_contra! ha
  have habs := abs_le.mp (abs_naturalLog_le bd ha hhigh)
  have hcases := sent_cases bd
  omega

theorem toInt_wrap16_sent (bd : Build) : (wrap16 (sent bd)).toInt = -99 * sNum bd := by cases bd <;> decide

theorem toInt_le (w : Word) : w.toInt ≤ 32767 := (s16_range w).2

/-- A logarithm in a register is the logarithm. -/
theorem toInt_wrap16_naturalLog (bd : Build) (a : Word) :
    (wrap16 (naturalLog bd a.toInt)).toInt = naturalLog bd a.toInt := by
  refine s16_wrap16_of_fits ?_
  unfold OutOfRange
  rcases le_or_gt a.toInt 0 with hnonpos | hpos
  · have := sent_cases bd
    rw [naturalLog_of_nonpos bd hnonpos]
    omega
  · have := abs_le.mp (abs_naturalLog_le bd hpos (toInt_le a))
    omega

/-! ## The reference logarithm as a relation (R201) -/

/-- The Horner values of the series are its evaluations over the first divisors (R201). -/
theorem lnSeries_take_succ (u2 : Int) {j : Nat} (hj : j < 5) :
    lnSeries u2 ([9, 7, 5, 3, 1].take (j + 1)) 2978 =
      [3640, 4681, 6553, 10922, 32768].getD j 0 + u2 * lnSeries u2 ([9, 7, 5, 3, 1].take j) 2978 / 32768 := by
  interval_cases j <;> rfl

/-- `ln16` is the logarithm of R201, read as a relation. -/
theorem ln16_isLn16 (bd : Build) {n : Nat} (hn : 0 < n) (hhigh : n ≤ 32767) : IsLn16 bd n (ln16 bd n) := by
  obtain ⟨hp, -, -⟩ := mantissa_range hn hhigh
  refine ⟨n.log2, shl n (15 - n.log2), lnRatio (shl n (15 - n.log2)),
    asr (lnRatio (shl n (15 - n.log2)) * lnRatio (shl n (15 - n.log2))) 15,
    fun j => lnSeries _ ([9, 7, 5, 3, 1].take j) 2978, by exact_mod_cast Nat.log2_self_le hn.ne',
    by exact_mod_cast Nat.lt_log2_self, hp, rfl, rfl, rfl, rfl, fun j hj => lnSeries_take_succ _ hj, ?_⟩
  cases bd <;> rfl

/-! ## The commands' meanings -/

theorem exec_ln (s : State) : exec .ln s = .next { s with r := wrap16 (naturalLog s.build s.a.toInt) } := rfl

/-- LOGB is one choice in three: the sentinel for operands without a logarithm, `DIVZERO` for base 1.0, else the quotient
(R203). -/
theorem exec_logb (s : State) :
    exec .logb s =
      if s.a.toInt ≤ 0 ∨ s.b.toInt ≤ 0 then .next { s with r := wrap16 (sent s.build), ovf := false }
      else if s.a.toInt = sNum s.build then .next (afterFault s 1)
      else .next (s.setResultOvf
        (rdivs (naturalLog s.build s.b.toInt * sNum s.build) (naturalLog s.build s.a.toInt))) := by
  have hmodel : exec .logb s =
      if naturalLog s.build s.a.toInt = sent s.build ∨ naturalLog s.build s.b.toInt = sent s.build then
        .next { s with r := wrap16 (sent s.build), ovf := false }
      else if naturalLog s.build s.a.toInt = 0 then faultNext .divzero s
      else .next (s.setResultOvf
        (rdivs (naturalLog s.build s.b.toInt * sNum s.build) (naturalLog s.build s.a.toInt))) := rfl
  simp only [hmodel, naturalLog_eq_sent_iff s.build (toInt_le _), faultNext_divzero]
  split
  · rfl
  · simp only [naturalLog_eq_zero_iff s.build (show 0 < s.a.toInt by omega) (toInt_le _)]

/-- LOG10 divides by the constant `LN10` (R204). -/
theorem exec_log10 (s : State) :
    exec .log10 s =
      if s.a.toInt ≤ 0 then .next { s with r := wrap16 (sent s.build) }
      else .next { s with r := wrap16 (rdivs (naturalLog s.build s.a.toInt * sNum s.build) (cLn10 s.build)) } := by
  have hmodel : exec .log10 s =
      if naturalLog s.build s.a.toInt = sent s.build then .next { s with r := wrap16 (sent s.build) }
      else .next { s with r := wrap16 (rdivs (naturalLog s.build s.a.toInt * sNum s.build) (cLn10 s.build)) } := rfl
  simp only [hmodel, naturalLog_eq_sent_iff s.build (toInt_le _)]

/-! ## The statements -/

/-- Settles O48: the operand's sign decides between the sentinel and the rounded series. -/
theorem lnIsTheSentinelOrTheSeries : Obligations.LnIsTheSentinelOrTheSeries := by
  intro s
  refine ⟨fun ha => ⟨_, ?_, exec_ln s⟩, fun ha => ⟨ln16 s.build s.a.toInt.toNat, _, ?_, ?_, exec_ln s⟩⟩
  · rw [naturalLog_of_nonpos s.build ha]
    exact toInt_wrap16_sent s.build
  · have hseries := ln16_isLn16 s.build (n := s.a.toInt.toNat) (by omega) (toNat_toInt_le s.a)
    rwa [Int.toNat_of_nonneg ha.le] at hseries
  · rw [toInt_wrap16_naturalLog, naturalLog_of_pos s.build ha]
    exact rdiv_isNearest _ (by norm_num)

/-- Settles O49: the logarithm grows with its operand, so the ends of the range and the neighbours of 1.0 decide. -/
theorem lnOfPositiveNeverEqualsTheSentinel : Obligations.LnOfPositiveNeverEqualsTheSentinel := by
  intro s ha
  have hrange := naturalLog_range s.build ha (toInt_le s.a)
  refine ⟨_, exec_ln s, ?_⟩
  rw [toInt_wrap16_naturalLog, scale_num]
  exact ⟨fun hsent => ((naturalLog_eq_sent_iff s.build (toInt_le s.a)).mp hsent).not_gt ha,
    fun hdec => by simpa only [if_pos hdec] using hrange, fun hbin => by simpa only [if_neg hbin] using hrange,
    naturalLog_eq_zero_iff s.build ha (toInt_le s.a)⟩

/-- LOG10's quotient always fits a register (R204). -/
theorem toInt_wrap16_log10 (bd : Build) {a : Int} (ha : 0 < a) (hhigh : a ≤ 32767) :
    (wrap16 (rdivs (naturalLog bd a * sNum bd) (cLn10 bd))).toInt = rdivs (naturalLog bd a * sNum bd) (cLn10 bd) := by
  have hlog := abs_naturalLog_le bd ha hhigh
  have hbound : |rdivs (naturalLog bd a * sNum bd) (cLn10 bd)| ≤ 32767 := by
    refine abs_le_of_isNearest (rdivs_isNearest _ (cLn10_pos bd).ne') ?_
    rw [abs_mul]
    cases bd <;> norm_num [sNum, cLn10] <;> omega
  exact s16_wrap16_of_fits (by have := abs_le.mp hbound; unfold OutOfRange; omega)

/-- Settles O50: the operands decide the branches, and `rdivs` rounds the quotient of the logarithms LN writes. -/
theorem logbAndLog10DivideTheLogarithms : Obligations.LogbAndLog10DivideTheLogarithms := by
  intro s
  refine ⟨_, _, exec_ln s, exec_ln { s with a := s.b }, ?_⟩
  rw [toInt_wrap16_naturalLog, toInt_wrap16_naturalLog, scale_num]
  have hscale := sNum_pos s.build
  refine ⟨?_, ?_, ?_, ?_, ?_⟩
  · intro hsentinel
    exact ⟨_, toInt_wrap16_sent s.build, (exec_logb s).trans (if_pos hsentinel)⟩
  · rintro ⟨hone, hb⟩
    rw [exec_logb, if_neg (by omega), if_pos hone]
  · rintro ⟨ha, hne, hb⟩
    have hlog : naturalLog s.build s.a.toInt ≠ 0 := fun h => hne ((naturalLog_eq_zero_iff s.build ha (toInt_le s.a)).mp h)
    refine ⟨_, _, rdivs_isNearest _ hlog, isPattern_wrap16 _, ?_⟩
    rw [exec_logb, if_neg (by omega), if_neg hne, setResultOvf_eq]
  · intro ha
    exact ⟨_, toInt_wrap16_sent s.build, (exec_log10 s).trans (if_pos ha)⟩
  · intro ha
    refine ⟨_, ?_, (exec_log10 s).trans (if_neg ha.not_ge)⟩
    rw [toInt_wrap16_log10 s.build ha (toInt_le s.a)]
    exact rdivs_isNearest _ (cLn10_pos s.build).ne'

end Sys2Proof.Machine
end

section
/-! PROOFS. EXP (45_transcendental.md R207 to R209). The quotient of the reference exponential grows with the operand: its
argument splits into a power of two and a rest, the rest's mantissa stays in [1, 2], so the power decides first. The
thresholds of saturation and underflow are then decided at the operands beside them. -/

namespace Sys2Proof.Machine

/-! ## The reference exponential in its parts (R208) -/

/-- The Horner loop keeps order in the variable and in the value it starts from. -/
theorem expSeries_le_expSeries {t t' : Int} (ht0 : 0 ≤ t) (ht : t ≤ t') {ds : List Int} (hds : ∀ d ∈ ds, 0 < d)
    {e e' : Int} (he0 : 0 ≤ e) (he : e ≤ e') : expSeries t ds e ≤ expSeries t' ds e' := by
  induction ds generalizing e e' with
  | nil => exact he
  | cons d ds ih =>
    rw [List.forall_mem_cons] at hds
    obtain ⟨hd, hds⟩ := hds
    have hterm : 0 ≤ t * e / (d * 32768) := Int.ediv_nonneg (by positivity) (by positivity)
    have hstep : t * e / (d * 32768) ≤ t' * e' / (d * 32768) :=
      Int.ediv_le_ediv (by positivity) (mul_le_mul ht he he0 (by omega))
    exact ih hds (by omega) (by omega)

/-- `a / S_NUM` at scale 65536 (R208). -/
def expArgument (bd : Build) (a : Int) : Int := if bd = .dec then rdiv (a * 16384) 25 else shl a 9

/-- The power of two in the exponential of `x` (R208). -/
def expExponent (x : Int) : Int := x / ln2At16

/-- The rest of `x`, below ln 2 (R208). -/
def expRest (x : Int) : Int := x - expExponent x * ln2At16

/-- The exponential of that rest at scale 32768, in [1, 2) (R208). -/
def expMantissa (x : Int) : Int := expSeries (asr (expRest x) 1) [7, 6, 5, 4, 3, 2, 1] 32768

/-- The quotient of `exp_ref` for whatever exponent, before it saturates (R208). -/
def expQuotient (bd : Build) (a : Int) : Int :=
  expScaled bd (expExponent (expArgument bd a)) (expMantissa (expArgument bd a))

/-- The reference exponential in terms of its parts. -/
theorem expRef_eq (bd : Build) (a : Int) :
    expRef bd a =
      if 9 ≤ expExponent (expArgument bd a) then { val := 32767, ovf := true }
      else if expExponent (expArgument bd a) < -15 then { val := 0, ovf := false }
      else if 32767 < expQuotient bd a then { val := 32767, ovf := true }
      else { val := expQuotient bd a, ovf := false } := by
  cases bd <;> rfl

/-! ## Each part keeps order -/

theorem expArgument_le_expArgument (bd : Build) {a a' : Int} (hle : a ≤ a') : expArgument bd a ≤ expArgument bd a' := by
  unfold expArgument shl
  split
  · exact rdiv_le_rdiv (by norm_num) (by norm_num) (by omega)
  · omega

theorem expRest_range (x : Int) : 0 ≤ expRest x ∧ expRest x < 45426 := by
  unfold expRest expExponent ln2At16
  omega

/-- The exponent and the rest order their argument lexicographically. -/
theorem expExponent_expRest_order {x x' : Int} (hle : x ≤ x') :
    expExponent x < expExponent x' ∨ expExponent x = expExponent x' ∧ expRest x ≤ expRest x' := by
  unfold expRest expExponent ln2At16
  omega

theorem expMantissa_le_expMantissa {x x' : Int} (hle : expRest x ≤ expRest x') : expMantissa x ≤ expMantissa x' :=
  expSeries_le_expSeries (Int.ediv_nonneg (expRest_range x).1 (by norm_num)) (Int.ediv_le_ediv (by norm_num) hle)
    (by decide) (by norm_num) le_rfl

/-- The Taylor series at 0 and just above ln 2. -/
theorem expSeries_ends :
    expSeries 0 [7, 6, 5, 4, 3, 2, 1] 32768 = 32768 ∧ expSeries 22713 [7, 6, 5, 4, 3, 2, 1] 32768 ≤ 65536 := by decide

theorem expMantissa_range (x : Int) : 32768 ≤ expMantissa x ∧ expMantissa x ≤ 65536 := by
  obtain ⟨hlow, htop⟩ := expRest_range x
  obtain ⟨hzero, hln2⟩ := expSeries_ends
  have ht0 : 0 ≤ asr (expRest x) 1 := Int.ediv_nonneg hlow (by norm_num)
  have ht : asr (expRest x) 1 ≤ 22713 := by unfold asr; omega
  constructor
  · rw [← hzero]
    exact expSeries_le_expSeries le_rfl ht0 (by decide) (by norm_num) le_rfl
  · exact (expSeries_le_expSeries ht0 ht (by decide) (by norm_num) le_rfl).trans hln2

/-! ## The quotient -/

/-- The quotient rounds as R208 says, whatever the exponent. -/
theorem expScaled_rounds (bd : Build) (k e : Int) :
    if bd = .dec then
      (if 0 ≤ k then IsNearest (e * 100 * 2 ^ k.toNat) 32768 (expScaled bd k e)
       else IsNearest (e * 100) (32768 * 2 ^ (-k).toNat) (expScaled bd k e))
    else
      (if 0 ≤ k then IsNearest (e * 2 ^ k.toNat) 256 (expScaled bd k e)
       else IsNearest e (256 * 2 ^ (-k).toNat) (expScaled bd k e)) := by
  rcases le_or_gt 0 k with hk | hk
  · cases bd <;> simpa [expScaled, Build.isBin, hk, shl] using rdiv_isNearest _ (by norm_num)
  · cases bd <;> simpa [expScaled, Build.isBin, hk.not_ge, shl] using rdiv_isNearest _ (by positivity)

/-- In every build and for every exponent the quotient is `e * S_NUM * 2^k / 32768`, rounded. -/
theorem expScaled_isNearest (bd : Build) (k e : Int) :
    IsNearest (e * sNum bd * 2 ^ k.toNat) (32768 * 2 ^ (-k).toNat) (expScaled bd k e) := by
  have hrounds := expScaled_rounds bd k e
  have hwiden (x : Nat) : (32768 * 2 ^ x : Int) = 256 * 2 ^ x * 128 := by ring
  rcases le_or_gt 0 k with hk | hk
  · have hden : (-k).toNat = 0 := by omega
    cases bd
    case dec => simpa [hden, hk, sNum] using hrounds
    all_goals
      rw [hwiden, sNum, mul_right_comm]
      exact isNearest_mul_right (by simpa [hden, hk] using hrounds) (by norm_num)
  · have hnum : k.toNat = 0 := by omega
    cases bd
    case dec => simpa [hnum, hk.not_ge, sNum] using hrounds
    all_goals
      rw [hwiden, sNum, mul_right_comm]
      exact isNearest_mul_right (by simpa [hnum, hk.not_ge] using hrounds) (by norm_num)

/-- Doubling outweighs the mantissa: the larger exponent has the larger quotient. -/
theorem expScaled_le_expScaled (bd : Build) {k k' e e' : Int} (he : e ≤ 65536) (he' : 32768 ≤ e')
    (h : k < k' ∨ k = k' ∧ e ≤ e') : expScaled bd k e ≤ expScaled bd k' e' := by
  refine isNearest_mono (expScaled_isNearest bd k e) (expScaled_isNearest bd k' e') (by positivity) (by positivity) ?_
  have hpow : e * 2 ^ (k.toNat + (-k').toNat) ≤ e' * 2 ^ (k'.toNat + (-k).toNat) := by
    rcases h with hlt | ⟨rfl, hle⟩
    · calc e * 2 ^ (k.toNat + (-k').toNat)
          ≤ 65536 * 2 ^ (k.toNat + (-k').toNat) := mul_le_mul_of_nonneg_right he (by positivity)
        _ = 32768 * 2 ^ (k.toNat + (-k').toNat + 1) := by ring
        _ ≤ 32768 * 2 ^ (k'.toNat + (-k).toNat) :=
            mul_le_mul_of_nonneg_left (pow_le_pow_right₀ one_le_two (by omega)) (by norm_num)
        _ ≤ e' * 2 ^ (k'.toNat + (-k).toNat) := mul_le_mul_of_nonneg_right he' (by positivity)
    · exact mul_le_mul_of_nonneg_right hle (by positivity)
  calc e * sNum bd * 2 ^ k.toNat * (32768 * 2 ^ (-k').toNat)
      = 32768 * sNum bd * (e * 2 ^ (k.toNat + (-k').toNat)) := by ring
    _ ≤ 32768 * sNum bd * (e' * 2 ^ (k'.toNat + (-k).toNat)) :=
        mul_le_mul_of_nonneg_left hpow (mul_nonneg (by norm_num) (sNum_pos bd).le)
    _ = e' * sNum bd * 2 ^ k'.toNat * (32768 * 2 ^ (-k).toNat) := by ring

/-- The quotient grows with the operand. -/
theorem expQuotient_le_expQuotient (bd : Build) {a a' : Int} (hle : a ≤ a') : expQuotient bd a ≤ expQuotient bd a' := by
  refine expScaled_le_expScaled bd (expMantissa_range _).2 (expMantissa_range _).1 ?_
  rcases expExponent_expRest_order (expArgument_le_expArgument bd hle) with hlt | ⟨heq, hrest⟩
  · exact .inl hlt
  · exact .inr ⟨heq, expMantissa_le_expMantissa hrest⟩

theorem expScaled_nonneg (bd : Build) (k : Int) {e : Int} (he : 0 ≤ e) : 0 ≤ expScaled bd k e := by
  have hzero : IsNearest 0 1 0 := rdiv_isNearest 0 one_pos
  refine isNearest_mono hzero (expScaled_isNearest bd k e) one_pos (by positivity) ?_
  have := sNum_pos bd
  simp only [zero_mul, mul_one]
  positivity

theorem expQuotient_nonneg (bd : Build) (a : Int) : 0 ≤ expQuotient bd a :=
  expScaled_nonneg bd _ (by have := (expMantissa_range (expArgument bd a)).1; omega)

/-- The least quotient of exponent 9 saturates; the least of exponent -15 is already 0. -/
theorem expScaled_ends (bd : Build) : 32767 < expScaled bd 9 32768 ∧ expScaled bd (-15) 32768 = 0 := by
  cases bd <;> decide

/-- R208's two tests of the exponent only anticipate what the quotient says. -/
theorem expRef_eq_clamped (bd : Build) (a : Int) :
    expRef bd a =
      if 32767 < expQuotient bd a then { val := 32767, ovf := true }
      else { val := expQuotient bd a, ovf := false } := by
  obtain ⟨hlow, htop⟩ := expMantissa_range (expArgument bd a)
  obtain ⟨hlarge, hsmall⟩ := expScaled_ends bd
  rw [expRef_eq]
  split
  · next hk =>
    have : expScaled bd 9 32768 ≤ expQuotient bd a := expScaled_le_expScaled bd (by norm_num) hlow (by omega)
    rw [if_pos (by omega)]
  split
  · next hk =>
    have : expQuotient bd a ≤ expScaled bd (-15) 32768 := expScaled_le_expScaled bd htop le_rfl (.inl (by omega))
    have := expQuotient_nonneg bd a
    rw [if_neg (by omega), show expQuotient bd a = 0 by omega]
  · rfl

/-! ## The reference exponential as a relation (R208) -/

/-- The Horner values of the series are its evaluations over the first divisors. -/
theorem expSeries_take_succ (t : Int) {j : Nat} (hj : j < 7) :
    expSeries t ([7, 6, 5, 4, 3, 2, 1].take (j + 1)) 32768 =
      32768 + t * expSeries t ([7, 6, 5, 4, 3, 2, 1].take j) 32768 / ((7 - j) * 32768) := by
  interval_cases j <;> rfl

/-- `expRef` is the exponential of R208, read as a relation. -/
theorem expRef_isExpRef (bd : Build) (a : Int) : IsExpRef bd a (expRef bd a).val (expRef bd a).ovf := by
  obtain ⟨hrest0, hrest⟩ := expRest_range (expArgument bd a)
  refine ⟨expArgument bd a, expExponent (expArgument bd a), expRest (expArgument bd a),
    fun j => expSeries (asr (expRest (expArgument bd a)) 1) ([7, 6, 5, 4, 3, 2, 1].take j) 32768, ?_,
    (add_sub_cancel _ _).symm, hrest0, hrest, rfl, fun j hj => expSeries_take_succ _ hj, ?_⟩
  · cases bd
    · exact rdiv_isNearest _ (by norm_num)
    all_goals rfl
  · rw [expRef_eq]
    split
    · next hk => exact .inl ⟨hk, rfl, rfl⟩
    split
    · next hk => exact .inr (.inl ⟨hk, rfl, rfl⟩)
    refine .inr (.inr ⟨by omega, by omega, expQuotient bd a, expScaled_rounds bd _ _, ?_⟩)
    split
    · next hq => exact .inl ⟨hq, rfl, rfl⟩
    · next hq => exact .inr ⟨by omega, rfl, rfl⟩

theorem expRef_val_range (bd : Build) (a : Int) : 0 ≤ (expRef bd a).val ∧ (expRef bd a).val ≤ 32767 := by
  have := expQuotient_nonneg bd a
  rw [expRef_eq_clamped]
  split
  · simp
  · simp only; omega

/-- An exponential in a register is the exponential. -/
theorem toInt_wrap16_expRef (bd : Build) (a : Int) : (wrap16 (expRef bd a).val).toInt = (expRef bd a).val :=
  s16_wrap16_of_fits (by have := expRef_val_range bd a; unfold OutOfRange; omega)

/-- EXP writes the value and the flag of the reference exponential (R209). -/
theorem exec_exp (s : State) :
    exec .exp s = .next { s with
      r := wrap16 (expRef s.build s.a.toInt).val
      ovf := (expRef s.build s.a.toInt).ovf } := rfl

/-- Settles O51: EXP writes the reference exponential, which fits a register. -/
theorem expIsTheReferenceExponential : Obligations.ExpIsTheReferenceExponential := by
  intro s
  refine ⟨_, _, ?_, exec_exp s⟩
  rw [toInt_wrap16_expRef]
  exact expRef_isExpRef s.build s.a.toInt

/-! ## Where EXP saturates and underflows (R208) -/

/-- The least operand for which EXP saturates (R208). -/
def expSaturation (bd : Build) : Int := if bd = .dec then 580 else 710

/-- The greatest operand for which EXP underflows (R208). -/
def expUnderflow (bd : Build) : Int := if bd = .dec then -530 else -710

/-- The quotient on either side of the thresholds, at 0 and at 1.0 (R207, R208). -/
theorem expQuotient_samples (bd : Build) :
    (expQuotient bd (expSaturation bd - 1) ≤ 32767 ∧ 32767 < expQuotient bd (expSaturation bd)) ∧
    (expQuotient bd (expUnderflow bd) = 0 ∧ 0 < expQuotient bd (expUnderflow bd + 1)) ∧
    expQuotient bd 0 = sNum bd ∧ expQuotient bd (sNum bd) = cE bd := by
  cases bd <;> decide

theorem expQuotient_saturates_iff (bd : Build) (a : Int) : 32767 < expQuotient bd a ↔ expSaturation bd ≤ a := by
  obtain ⟨⟨hbelow, hat⟩, -⟩ := expQuotient_samples bd
  constructor
  · intro hq
    by_contra! hlt
    have := expQuotient_le_expQuotient bd (Int.le_sub_one_of_lt hlt)
    omega
  · intro hle
    have := expQuotient_le_expQuotient bd hle
    omega

theorem expQuotient_eq_zero_iff (bd : Build) (a : Int) : expQuotient bd a = 0 ↔ a ≤ expUnderflow bd := by
  obtain ⟨-, ⟨hat, habove⟩, -⟩ := expQuotient_samples bd
  constructor
  · intro hq
    by_contra! hlt
    have := expQuotient_le_expQuotient bd (Int.add_one_le_of_lt hlt)
    omega
  · intro hle
    have := expQuotient_le_expQuotient bd hle
    have := expQuotient_nonneg bd a
    omega

theorem expRef_of_saturation_le {bd : Build} {a : Int} (ha : expSaturation bd ≤ a) :
    expRef bd a = { val := 32767, ovf := true } := by
  rw [expRef_eq_clamped, if_pos ((expQuotient_saturates_iff bd a).mpr ha)]

theorem expRef_of_lt_saturation {bd : Build} {a : Int} (ha : a < expSaturation bd) :
    expRef bd a = { val := expQuotient bd a, ovf := false } := by
  rw [expRef_eq_clamped, if_neg (by rw [expQuotient_saturates_iff]; omega)]

theorem expRef_ovf (bd : Build) (a : Int) : (expRef bd a).ovf = decide (expSaturation bd ≤ a) := by
  rcases le_or_gt (expSaturation bd) a with hle | hlt
  · rw [expRef_of_saturation_le hle, decide_eq_true hle]
  · rw [expRef_of_lt_saturation hlt, decide_eq_false hlt.not_ge]

theorem exp_thresholds_order (bd : Build) : expUnderflow bd < 0 ∧ sNum bd < expSaturation bd := by cases bd <;> decide

theorem expRef_val_eq_zero_iff (bd : Build) (a : Int) : (expRef bd a).val = 0 ↔ a ≤ expUnderflow bd := by
  have := exp_thresholds_order bd
  have := sNum_pos bd
  rcases le_or_gt (expSaturation bd) a with hle | hlt
  · rw [expRef_of_saturation_le hle]
    simp only
    omega
  · rw [expRef_of_lt_saturation hlt]
    exact expQuotient_eq_zero_iff bd a

/-- Settles O52: since the quotient grows with the operand, its values beside the thresholds decide. -/
theorem expSaturatesAndUnderflowsWhereStated : Obligations.ExpSaturatesAndUnderflowsWhereStated := by
  intro s
  obtain ⟨-, -, hzero, hone⟩ := expQuotient_samples s.build
  obtain ⟨-, hbelow⟩ := exp_thresholds_order s.build
  have hscale := sNum_pos s.build
  refine ⟨_, (exec_exp s).trans (by rw [expRef_ovf]; rfl), ?_⟩
  rw [toInt_wrap16_expRef]
  refine ⟨(expRef_val_range _ _).1, fun hsat => ?_, expRef_val_eq_zero_iff _ _, fun ha => ?_, fun ha => ?_⟩
  · rw [expRef_of_saturation_le hsat]
  · rw [ha, expRef_of_lt_saturation (by omega)]
    exact hzero
  · rw [ha, scale_num, expRef_of_lt_saturation hbelow]
    exact hone

end Sys2Proof.Machine
end

section
/-! PROOFS. Angle conversion (46_angle_rational.md R230 to R232). Both conversions round an exact ratio, so where they leave the
16-bit range is where the ratio is half a unit outside it; and the two roundings of a round trip together move an angle by
less than one unit of a degree. -/

namespace Sys2Proof.Machine

/-- A rounded quotient exceeds `m` from half a unit above it on, the tie included: it goes away from zero. -/
theorem lt_iff_of_isNearest {p d q m : Int} (h : IsNearest p d q) (hd : 0 < d) (hm : 0 ≤ m) :
    m < q ↔ (2 * m + 1) * d ≤ 2 * p := by
  obtain ⟨hle, hlt⟩ := le_of_isNearest h hd
  constructor
  · intro hmq
    exact (mul_le_mul_of_nonneg_right (by omega) hd.le).trans (ge_of_isNearest h hd).1
  · intro hfar
    by_contra! hqm
    have hends : (2 * q + 1) * d ≤ (2 * m + 1) * d := mul_le_mul_of_nonneg_right (by omega) hd.le
    rcases le_or_gt 0 q with hq | hq
    · exact absurd (hlt hq) (hends.trans hfar).not_gt
    · linarith [mul_pos (show 0 < 2 * m + 1 by omega) hd, mul_neg_of_neg_of_pos (show 2 * q + 1 < 0 by omega) hd]

/-- Where a rounded quotient leaves the 16-bit range. -/
theorem outOfRange_iff_of_isNearest {p d q : Int} (h : IsNearest p d q) (hd : 0 < d) :
    OutOfRange q ↔ 65537 * d ≤ 2 * -p ∨ 65535 * d ≤ 2 * p := by
  have hlow := lt_iff_of_isNearest (isNearest_neg_num h) hd (m := 32768) (by norm_num)
  have hhigh := lt_iff_of_isNearest h hd (m := 32767) (by norm_num)
  rw [OutOfRange]
  omega

/-! ## The commands' meanings -/

/-- D2R writes the rounded ratio and whether it was out of range (R230). -/
theorem exec_d2r (s : State) :
    exec .d2r s = .next { s with
      r := wrap16 (rdiv (s.a.toInt * cTwoPi s.build) (360 * sDeg s.build))
      ovf := decide (OutOfRange (rdiv (s.a.toInt * cTwoPi s.build) (360 * sDeg s.build))) } := by
  rw [← setResultOvf_eq]
  rfl

/-- R2D does the same with the ratio the other way up (R231). -/
theorem exec_r2d (s : State) :
    exec .r2d s = .next { s with
      r := wrap16 (rdiv (s.a.toInt * 360 * sDeg s.build) (cTwoPi s.build))
      ovf := decide (OutOfRange (rdiv (s.a.toInt * 360 * sDeg s.build) (cTwoPi s.build))) } := by
  rw [← setResultOvf_eq]
  rfl

theorem fullCircleDeg_pos (bd : Build) : 0 < 360 * sDeg bd := mul_pos (by norm_num) (sDeg_pos bd)

/-- Settles O56: `rdiv` rounds to nearest, and the bounds of R230 and R231 are those of `outOfRange_iff_of_isNearest` with each
build's constants. -/
theorem angleConversionsRoundTheExactRatio : Obligations.AngleConversionsRoundTheExactRatio := by
  intro s
  have hrange : -32768 ≤ s.a.toInt ∧ s.a.toInt ≤ 32767 := s16_range s.a
  have hrad := rdiv_isNearest (s.a.toInt * cTwoPi s.build) (fullCircleDeg_pos s.build)
  have hdeg := rdiv_isNearest (s.a.toInt * 360 * sDeg s.build) (cTwoPi_pos s.build)
  refine ⟨⟨_, _, hrad, isPattern_wrap16 _, exec_d2r s, ?_⟩, _, _, hdeg, isPattern_wrap16 _, exec_r2d s, ?_⟩
  · rw [outOfRange_iff_of_isNearest hrad (fullCircleDeg_pos s.build)]
    cases s.build <;> simp [cTwoPi, sDeg] <;> omega
  · rw [outOfRange_iff_of_isNearest hdeg (cTwoPi_pos s.build)]
    cases s.build <;> simp [cTwoPi, sDeg] <;> omega

/-! ## The round trip -/

/-- Half a unit of a radian is less than half a unit of a degree in `DEC` and Q5.10, and less than a whole one in Q6.9. -/
theorem degreeRoundTrip_error {bd : Build} {a q x : Int} (hrad : IsNearest (a * cTwoPi bd) (360 * sDeg bd) q)
    (hdeg : IsNearest (q * 360 * sDeg bd) (cTwoPi bd) x) : |x - a| ≤ 1 ∧ (bd ≠ .binQ69 → x = a) := by
  have hrad_le := (le_of_isNearest hrad (fullCircleDeg_pos bd)).1
  have hrad_ge := (ge_of_isNearest hrad (fullCircleDeg_pos bd)).1
  have hdeg_le := (le_of_isNearest hdeg (cTwoPi_pos bd)).1
  have hdeg_ge := (ge_of_isNearest hdeg (cTwoPi_pos bd)).1
  rw [abs_le]
  cases bd <;> simp only [cTwoPi, sDeg] at hrad_le hrad_ge hdeg_le hdeg_ge
  case binQ69 => exact ⟨by omega, fun h => absurd rfl h⟩
  all_goals exact ⟨by omega, fun _ => by omega⟩

/-- Settles O57: angles below the full circle stay inside the bounds of R230, and the result is next to the operand. -/
theorem degreeRoundTripWithinTolerance : Obligations.DegreeRoundTripWithinTolerance := by
  intro s hnonneg hlt
  have hcircle : 360 * scale s.build .deg ≤ 5760 := by cases s.build <;> decide
  obtain ⟨⟨q, w, hq, hw, hd2r, hout⟩, -⟩ := angleConversionsRoundTheExactRatio s
  obtain ⟨-, x, u, hx, hu, hr2d, -⟩ :=
    angleConversionsRoundTheExactRatio { s with a := w, r := w, ovf := decide (OutOfRange q) }
  have hqfits : ¬ OutOfRange q := by
    rw [hout]
    omega
  simp only [toInt_of_isPattern hw hqfits] at hx
  obtain ⟨herror, hexact⟩ := degreeRoundTrip_error hq hx
  have hxfits : ¬ OutOfRange x := by
    rw [abs_le] at herror
    omega
  have hux : u.toInt = x := toInt_of_isPattern hu hxfits
  refine ⟨_, _, hd2r, hr2d, decide_eq_false hqfits, decide_eq_false hxfits, ?_, fun hbuild => ?_⟩
  · simpa only [hux] using herror
  · exact BitVec.eq_of_toInt_eq (hux.trans (hexact hbuild))

end Sys2Proof.Machine
end

section
/-! PROOFS. GCD, RATIO, SCALEU and SCALED (46_angle_rational.md R233 to R239). The bound on GCD's iterations is Lamé's: the more
iterations a run needs, the larger the Fibonacci numbers its operands reach. RATIO's search keeps an invariant: what it holds is
the best fraction of the denominators it has seen. -/

namespace Sys2Proof.Machine

/-! ## GCD -/

/-- An iteration keeps the greatest common divisor, so a run finds it when what follows its first iteration does. -/
theorem gcdLoop_succ_eq_gcd {n u v : Nat} (h : v ≠ 0 → gcdLoop n v (u % v) = Nat.gcd v (u % v)) :
    gcdLoop (n + 1) u v = Nat.gcd u v := by
  unfold gcdLoop
  split
  · next hv => simp [hv]
  · next hv => rw [h hv, Nat.gcd_comm, ← Nat.gcd_rec, Nat.gcd_comm]

/-- Lamé's bound: `n` iterations suffice when one of the operands is below its Fibonacci number. -/
theorem gcdLoop_eq_gcd_of_lt_fib {n u v : Nat} (hvu : v < u) (h : v < Nat.fib (n + 2) ∨ u < Nat.fib (n + 3)) :
    gcdLoop n u v = Nat.gcd u v := by
  induction n generalizing u v with
  | zero =>
    have h : v < 1 ∨ u < 2 := h
    obtain rfl : v = 0 := by omega
    exact (Nat.gcd_zero_right u).symm
  | succ n ih =>
    refine gcdLoop_succ_eq_gcd fun hv => ih (Nat.mod_lt u (Nat.pos_of_ne_zero hv)) ?_
    have h : v < Nat.fib (n + 3) ∨ u < Nat.fib (n + 4) := h
    have hfib : Nat.fib (n + 4) = Nat.fib (n + 2) + Nat.fib (n + 3) := Nat.fib_add_two
    have hrest : u % v ≤ u - v := Nat.mod_eq_sub_mod hvu.le ▸ Nat.mod_le (u - v) v
    omega

theorem exec_gcd (s : State) :
    exec .gcd s = .next { s with r := BitVec.ofNat 16 (gcdLoop 65536 s.a.toNat s.b.toNat) } := rfl

/-- Settles O58: the fuel exceeds every operand; and after one iteration the operands are in order and below the 25th Fibonacci
number, so 22 more suffice. -/
theorem gcdIsTheGreatestCommonDivisor : Obligations.GcdIsTheGreatestCommonDivisor := by
  refine ⟨fun s => ?_, fun u v _ hv => ?_⟩
  · rw [exec_gcd, gcdLoop_eq_gcd _ _ _ s.b.isLt]
  · have hfib : Nat.fib (22 + 3) = 75025 := by decide
    exact gcdLoop_succ_eq_gcd fun hpos =>
      gcdLoop_eq_gcd_of_lt_fib (Nat.mod_lt u (Nat.pos_of_ne_zero hpos)) (.inr (by omega))

/-! ## RATIO -/

/-- No integer multiple of the divisor is nearer to the numerator than that of the rounded quotient. -/
theorem abs_sub_le_of_isNearest {p d q : Int} (h : IsNearest p d q) (m : Int) : |p - q * d| ≤ |p - m * d| := by
  obtain ⟨-, hnear, -⟩ := h
  rcases eq_or_ne q m with rfl | hne
  · exact le_rfl
  · have hstep : |d| ≤ |q * d - m * d| := by
      rw [← sub_mul, abs_mul]
      exact le_mul_of_one_le_left (abs_nonneg d) (Int.one_le_abs (sub_ne_zero.mpr hne))
    have htriangle := abs_sub_le (q * d) p (m * d)
    rw [abs_sub_comm (q * d) p] at htriangle
    linarith

/-- How far `num / den` is from `a / S_NUM`, times `den * S_NUM` (R237). -/
def ratioError (bd : Build) (a num den : Int) : Int := |num * sNum bd - a * den|

/-- A fraction's common factor is a factor of its error. -/
theorem ratioError_mul_right (bd : Build) (a num den : Int) (g : Nat) :
    ratioError bd a (num * g) (den * g) = ratioError bd a num den * g := by
  have hfactor : num * g * sNum bd - a * (den * g) = (num * sNum bd - a * den) * g := by ring
  rw [ratioError, hfactor, abs_mul, Nat.abs_cast]
  rfl

theorem ratioAt_e (bd : Build) (a den : Int) :
    (ratioAt bd a den).e = ratioError bd a (ratioAt bd a den).num (ratioAt bd a den).den := Int.natCast_natAbs _

@[simp] theorem ratioAt_den (bd : Build) (a den : Int) : (ratioAt bd a den).den = den := rfl

/-- RATIO's candidate has the least error among the fractions of its denominator. -/
theorem ratioAt_e_le (bd : Build) (a den num : Int) : (ratioAt bd a den).e ≤ ratioError bd a num den := by
  have h := abs_sub_le_of_isNearest (rdiv_isNearest (a * den) (sNum_pos bd)) num
  rw [abs_sub_comm, abs_sub_comm (a * den)] at h
  exact (ratioAt_e bd a den).trans_le h

/-- The candidate of a value in 0 .. 1.0 is a fraction in 0 .. 1. -/
theorem ratioAt_num_range {bd : Build} {a den : Int} (hnonneg : 0 ≤ a) (hle : a ≤ sNum bd) (hden : 0 < den) :
    0 ≤ (ratioAt bd a den).num ∧ (ratioAt bd a den).num ≤ den := by
  have hscale := sNum_pos bd
  constructor
  · calc 0 = rdiv (0 * sNum bd) (sNum bd) := (rdiv_mul_self 0 hscale).symm
      _ ≤ rdiv (a * den) (sNum bd) := rdiv_le_rdiv hscale hscale (by rw [zero_mul, zero_mul]; positivity)
  · have hvalue : a * den ≤ den * sNum bd := by
      rw [mul_comm a]
      exact mul_le_mul_of_nonneg_left hle hden.le
    calc rdiv (a * den) (sNum bd) ≤ rdiv (den * sNum bd) (sNum bd) :=
          rdiv_le_rdiv hscale hscale (mul_le_mul_of_nonneg_right hvalue hscale.le)
      _ = den := rdiv_mul_self den hscale

/-- `q` is a candidate, and among the fractions with denominators 1 .. `k` it has the least error, and the smallest denominator
of those with that error. -/
structure IsBestUpTo (bd : Build) (a k : Int) (q : Ratio) : Prop where
  den_pos : 1 ≤ q.den
  den_le : q.den ≤ k
  candidate : q = ratioAt bd a q.den
  least : ∀ num den : Int, 1 ≤ den → den ≤ k →
    q.e * den ≤ ratioError bd a num den * q.den ∧ (den < q.den → q.e * den < ratioError bd a num den * q.den)

theorem isBestUpTo_one (bd : Build) (a : Int) : IsBestUpTo bd a 1 (ratioAt bd a 1) where
  den_pos := le_rfl
  den_le := le_rfl
  candidate := rfl
  least num den hpos hle := by
    obtain rfl : den = 1 := by omega
    simpa using ratioAt_e_le bd a 1 num

/-- An error below the best one is below every error the best one is not above, across denominators. -/
theorem mul_lt_mul_of_cross {e d e' d' e'' d'' : Int} (hd : 0 < d) (hd' : 0 < d') (hd'' : 0 < d'')
    (hlt : e * d' < e' * d) (hle : e' * d'' ≤ e'' * d') : e * d'' < e'' * d := by
  refine lt_of_mul_lt_mul_right ?_ hd'.le
  calc e * d'' * d' = e * d' * d'' := by ring
    _ < e' * d * d'' := mul_lt_mul_of_pos_right hlt hd''
    _ = e' * d'' * d := by ring
    _ ≤ e'' * d' * d := mul_le_mul_of_nonneg_right hle hd.le
    _ = e'' * d * d' := by ring

/-- The next denominator's candidate replaces the best fraction exactly when it is better. -/
theorem IsBestUpTo.better {bd : Build} {a k : Int} {q : Ratio} (h : IsBestUpTo bd a k q) :
    IsBestUpTo bd a (k + 1) (q.better (ratioAt bd a (k + 1))) := by
  obtain ⟨hpos, hle, hcand, hleast⟩ := h
  have hnext (num : Int) {d : Int} (hd : 1 ≤ d) :
      (ratioAt bd a (k + 1)).e * d ≤ ratioError bd a num (k + 1) * d :=
    mul_le_mul_of_nonneg_right (ratioAt_e_le bd a (k + 1) num) (by omega)
  unfold Ratio.better
  split
  · next hlt =>
    have hk : 1 ≤ k + 1 := by omega
    refine ⟨hk, le_rfl, rfl, fun num den hden hdenk => ?_⟩
    rcases hdenk.lt_or_eq with hold | rfl
    · have hstrict := mul_lt_mul_of_cross hk hpos hden hlt (hleast num den hden (by omega)).1
      exact ⟨hstrict.le, fun _ => hstrict⟩
    · exact ⟨hnext num hk, fun hlt => absurd hlt (lt_irrefl _)⟩
  · next hge =>
    refine ⟨hpos, by omega, hcand, fun num den hden hdenk => ?_⟩
    rcases hdenk.lt_or_eq with hold | rfl
    · exact hleast num den hden (by omega)
    · exact ⟨(not_lt.mp hge).trans (hnext num hpos), fun hlt => by omega⟩

/-- The search over further denominators keeps the best fraction of all it has seen. -/
theorem IsBestUpTo.loop {bd : Build} {a : Int} (n : Nat) {k : Int} {q : Ratio} (h : IsBestUpTo bd a k q) :
    IsBestUpTo bd a (k + n) (ratioLoop bd a n (k + 1) q) := by
  induction n generalizing k q with
  | zero => simpa [ratioLoop] using h
  | succ n ih =>
    have hseen : k + ((n + 1 : Nat) : Int) = k + 1 + n := by omega
    rw [hseen]
    exact ih h.better

/-- What RATIO's search ends with (R237). -/
theorem bestRatio_isBestUpTo (bd : Build) (a : Int) : IsBestUpTo bd a 16 (bestRatio bd a) :=
  (isBestUpTo_one bd a).loop 15

theorem IsBestUpTo.e_eq {bd : Build} {a k : Int} {q : Ratio} (h : IsBestUpTo bd a k q) :
    q.e = ratioError bd a q.num q.den := by
  rw [h.candidate]
  exact ratioAt_e bd a q.den

/-- The best fraction for a value in 0 .. 1.0 is itself in 0 .. 1. -/
theorem IsBestUpTo.num_range {bd : Build} {a k : Int} {q : Ratio} (h : IsBestUpTo bd a k q) (hnonneg : 0 ≤ a)
    (hle : a ≤ sNum bd) : 0 ≤ q.num ∧ q.num ≤ q.den := by
  rw [h.candidate]
  exact ratioAt_num_range hnonneg hle h.den_pos

/-- The best fraction is in lowest terms: its reduction would have the same error and a smaller denominator. -/
theorem IsBestUpTo.gcd_eq_one {bd : Build} {a k : Int} {q : Ratio} (h : IsBestUpTo bd a k q) : Int.gcd q.num q.den = 1 := by
  have hpos := h.den_pos
  have hle := h.den_le
  have hgcd : 0 < Int.gcd q.num q.den := Int.gcd_pos_of_ne_zero_right q.num (by omega)
  obtain ⟨num, den, -, hnum, hden⟩ := Int.exists_gcd_one hgcd
  generalize Int.gcd q.num q.den = g at *
  by_contra hne
  have hdenpos : 0 < den := pos_of_mul_pos_left (by omega : 0 < den * (g : Int)) (by omega)
  have hsmaller : den < q.den := by
    rw [hden]
    exact lt_mul_of_one_lt_right hdenpos (by omega)
  have hworse := (h.least num den hdenpos (by omega)).2 hsmaller
  rw [h.e_eq, hnum, hden, ratioError_mul_right] at hworse
  exact hworse.ne (by ring)

/-- RATIO is one choice: `DOMAIN` outside 0 .. 1.0, else the packed fraction (R237). -/
theorem exec_ratio (s : State) :
    exec .ratio s =
      if s.a.toInt < 0 ∨ sNum s.build < s.a.toInt then .next (afterFault s 2)
      else .next { s with
        r := wrap16 ((bestRatio s.build s.a.toInt).num * 256 + (bestRatio s.build s.a.toInt).den) } := by
  rw [← faultNext_domain]
  rfl

/-- Packing puts the numerator in the high byte. -/
theorem wrap16_packed (num den : Nat) : wrap16 ((num : Int) * 256 + den) = BitVec.ofNat 16 (256 * num + den) := by
  rw [mul_comm]
  exact BitVec.ofInt_natCast 16 (256 * num + den)

/-- Settles O59: the operand's range decides the two branches, and the search ends with the best fraction of the denominators
1 .. 16. -/
theorem ratioIsTheNearestSmallFractionOrFaults : Obligations.RatioIsTheNearestSmallFractionOrFaults := by
  intro s
  constructor
  · rintro ⟨hnonneg, hle⟩
    have hexec := (exec_ratio s).trans (if_neg (by rw [scale_num] at hle; omega))
    have hbest := bestRatio_isBestUpTo s.build s.a.toInt
    generalize bestRatio s.build s.a.toInt = q at hexec hbest
    obtain ⟨hnum, hnumle⟩ := hbest.num_range hnonneg hle
    have hgcd := hbest.gcd_eq_one
    have hden := hbest.den_pos
    have hdenle := hbest.den_le
    have hleast := hbest.least
    rw [hbest.e_eq] at hleast
    clear hbest
    obtain ⟨_, num, den⟩ := q
    lift num to ℕ using hnum
    lift den to ℕ using zero_le_one.trans hden
    simp only [wrap16_packed] at hden hdenle hnumle hexec
    exact ⟨num, den, by omega, by omega, by omega, hgcd, hleast, hexec⟩
  · intro houtside
    exact (exec_ratio s).trans (if_pos houtside)

/-! ## SCALEU and SCALED -/

/-- SCALEU writes the product and whether it was out of range (R238). -/
theorem exec_scaleu (s : State) :
    exec .scaleu s = .next { s with
      r := wrap16 (s.a.toInt * s.b.toInt)
      ovf := decide (OutOfRange (s.a.toInt * s.b.toInt)) } := by
  rw [← setResultOvf_eq]
  rfl

/-- SCALED is one choice: `DIVZERO` for a zero divisor, else the rounded quotient (R239). -/
theorem exec_scaled (s : State) :
    exec .scaled s =
      if s.b.toInt = 0 then .next (afterFault s 1)
      else .next { s with
        r := wrap16 (rdivs s.a.toInt s.b.toInt)
        ovf := decide (OutOfRange (rdivs s.a.toInt s.b.toInt)) } := by
  rw [← faultNext_divzero, ← setResultOvf_eq]
  rfl

/-- A register's value divided by an integer leaves the range only for -32768 / -1 (R239). -/
theorem outOfRange_rdivs_iff {a b : Int} (ha : ¬ OutOfRange a) (hb : b ≠ 0) :
    OutOfRange (rdivs a b) ↔ a = -32768 ∧ b = -1 := by
  rcases eq_or_ne b 1 with rfl | hone
  · have hself : rdivs a 1 = a := by simpa using rdivs_mul_self a one_ne_zero
    omega
  rcases eq_or_ne b (-1) with rfl | hneg
  · have hself : rdivs a (-1) = -a := by simpa using rdivs_mul_self (-a) (d := -1) (by norm_num)
    omega
  · have hlarge : 2 ≤ |b| := le_abs.mpr (by omega)
    have habs : |a| ≤ 32768 := abs_le.mpr (by omega)
    have hfits := abs_le.mp (abs_le_of_isNearest (rdivs_isNearest a hb) (m := 32767) (by linarith))
    omega

/-- SCALED divides the product SCALEU wrote by the same factor, exactly (R239). -/
theorem scaled_undoes_scaleu {s : State} (hb : s.b.toInt ≠ 0) (hfits : ¬ OutOfRange (s.a.toInt * s.b.toInt)) :
    ∃ t u : State, exec .scaleu s = .next t ∧ exec .scaled { t with a := t.r } = .next u ∧ u.r = s.a ∧ u.ovf = false := by
  have hproduct : (wrap16 (s.a.toInt * s.b.toInt)).toInt = s.a.toInt * s.b.toInt := s16_wrap16_of_fits hfits
  refine ⟨_, _, exec_scaleu s, (exec_scaled _).trans (if_neg hb), ?_, ?_⟩ <;>
    simp only [hproduct, rdivs_mul_self _ hb]
  · exact wrap16_toInt s.a
  · exact decide_outOfRange_toInt s.a

/-- Settles O60: whether the divisor is 0 decides SCALED's branches, and only -32768 / -1 leaves the range. -/
theorem scaleuMultipliesAndScaledDivides : Obligations.ScaleuMultipliesAndScaledDivides := by
  intro s
  refine ⟨⟨_, isPattern_wrap16 _, exec_scaleu s⟩, fun hb => ?_, fun hb => ?_, fun ⟨hb, hfits⟩ => ?_⟩
  · refine ⟨_, _, rdivs_isNearest _ hb, isPattern_wrap16 _, ?_⟩
    rw [exec_scaled, if_neg hb]
    simp only [outOfRange_rdivs_iff (a := s.a.toInt) (not_outOfRange_s16 s.a) hb]
  · exact (exec_scaled s).trans (if_pos hb)
  · exact scaled_undoes_scaleu hb hfits

end Sys2Proof.Machine
end

section
/-! PROOFS. Reset (70_reset_and_hazards.md R270, R271; 10_state.md R51): what the state of a build after reset holds, and
what an assertion of `rst` makes of any state. -/

namespace Sys2Proof.Machine

/-- The state after reset, field by field (R51, R271). -/
theorem resetOf_eq (bd : Build) :
    State.resetOf bd = { a := 0, b := 0, r := 0, rh := 0, ovf := false, neg := false, pv := false, cause := 0,
                         build := bd, requests := [], replies := [] } := rfl

/-- `State.reset` is the reset state of its own build, whichever build that is (R51). -/
theorem reset_eq_resetOf_build : State.reset = State.resetOf State.reset.build := by
  unfold State.reset
  rw [State.resetOf_build]

/-- Settles O10: an asserted `rst` is the step of `step_reset`, whose unit part `resetUnit_eq` gives field by field. -/
theorem resetClearsEveryRegisterAndFlag : Obligations.ResetClearsEveryRegisterAndFlag := by
  refine ⟨fun s rest hreq => ?_, resetOf_eq, reset_eq_resetOf_build⟩
  rw [step_reset hreq, resetUnit_eq]

end Sys2Proof.Machine
end
